-- ==== Sys2Proof/Word.lean ====
section
/-! DEFINITION. The plain word types of the module: bytes, byte strings, and the numbered things of the manual (contexts,
dies, islands, links, …) as bounded numbers. -/

namespace Sys2Proof

/-- One byte. -/
abbrev Byte := BitVec 8

/-- A byte string in ascending address order (R7: the byte at the lowest address holds bits [7:0]). -/
abbrev Bytes := List Byte

/-- Contexts 0 to 3 (00 Parties, R22). -/
abbrev CtxId := Fin 4

/-- Compute dies C0 to C3 (01 Dies and bridges). -/
abbrev DieId := Fin 4

/-- The 134 clock islands of R14. -/
abbrev IslandId := Fin 134

/-- Fabric links 0 to 35 (R220). -/
abbrev LinkId := Fin 36

/-- Bundles 0 to 15 (R251). -/
abbrev BundleId := Fin 16

/-- Virtual channels 0 to 7 (R247). -/
abbrev VcId := Fin 8

/-- Buffer pools 0 to 63 (R107). -/
abbrev PoolId := Fin 64

/-- BPM requesters: 0 to 3 contexts, 4 Shuttle, 5 MOVE, 6 Drover (R110). -/
abbrev Requester := Fin 7

/-- Sensors 0 to 159 (R353). -/
abbrev SensorId := Fin 160

/-- Event counters 0 to 255 (R362). -/
abbrev CounterId := Fin 256

/-- DRAM channels 0 to 23 (R83). -/
abbrev DramChan := Fin 24

/-- Fold slots 0 to 3 (R265). -/
abbrev FoldSlot := Fin 4

/-- Queue pairs 0 to 17 of a context (R280). -/
abbrev QpNo := Fin 18

/-- Memory windows 0 to 15 of a context (R287). -/
abbrev MwNo := Fin 16

/-- Physical coordinates in the manual's 18-bit layout: [17:14] x, [13:8] y, [7:0] z (R242, R271). -/
abbrev Coord := BitVec 18

/-- The x coordinate. -/
def Coord.x (p : Coord) : Nat := (p.extractLsb' 14 4).toNat

/-- The y coordinate. -/
def Coord.y (p : Coord) : Nat := (p.extractLsb' 8 6).toNat

/-- The z coordinate. -/
def Coord.z (p : Coord) : Nat := (p.extractLsb' 0 8).toNat

/-- Coordinates from their three numbers. -/
def Coord.mk3 (x y z : Nat) : Coord := BitVec.ofNat 18 (x % 16 * 2 ^ 14 + y % 64 * 2 ^ 8 + z % 256)

end Sys2Proof
end

