-- ==== Sys2Proof/Syntax.lean ====
section
/-! DEFINITION. The commands of the module: one constructor per row of spec/opcode_table.json, with the operands each row's
rule speaks of. The table gives no bits, so the operands are the model's own (log 1). Where a row is a received message, `ce` says
that a packet of it came marked CE (R278). -/

namespace Sys2Proof

/-- The entrances of the object dictionary: CAN FD, and the management QP of a context (R290, R343). -/
inductive Channel where
  | can
  | qp (c : CtxId)
  deriving DecidableEq, Repr

/-- A fabric packet: the 32-byte header of R242 as one 256-bit number, and its payload. -/
structure Packet where
  hdr : BitVec 256
  payload : Bytes
  deriving DecidableEq, Repr

/-- What a patrol scrub finds in a DRAM line (R86). -/
inductive ScrubResult where
  | clean
  | corrected (device : Nat)
  | uncorrectable
  deriving DecidableEq, Repr

/-- An upset of memory cells: a scratchpad word or a DRAM unit, and for an error that ECC corrects the DRAM device (R80, R85). -/
inductive Upset where
  | spadSingle (word : Nat)
  | spadMulti (word : Nat)
  | dramDevice (unit device : Nat)
  | dramMulti (unit : Nat)
  deriving DecidableEq, Repr

/-- What befalls the memories while a piece moves: cells that are upset, and the cycles that requests waited for scratchpad banks,
by island (R77, R80, R85). -/
structure MemEvents where
  upsets : List Upset := []
  waits : List (Nat × Nat) := []
  deriving DecidableEq, Repr

/-- One MOVE channel moves a piece: the channel, and what befalls the memories meanwhile (R96). -/
structure PieceMove where
  chan : Fin 8
  ev : MemEvents
  deriving DecidableEq, Repr

/-- An error in the SRAM of the hub or of the management subsystem, or in unit state (R320 to R322): corrected; or uncorrectable, in state of
one context, or in state that no single context owns (log 81). -/
inductive StateError where
  | corrected
  | owned (c : CtxId)
  | shared
  deriving DecidableEq, Repr

/-- Such an error at an island. -/
structure StateUpset where
  isl : IslandId
  e : StateError
  deriving DecidableEq, Repr

/-- What befalls a packet as the crossbar forwards it (R320, R321): its route table entry fails its parity, or a word of its buffer in hub
SRAM is upset and corrected, or beyond correction. -/
inductive HopUpset where
  | routeParity
  | corrected
  | spoiled
  deriving DecidableEq, Repr

/-- A step of the crossbar: the VC it serves at an input, and what befalls the packet. -/
structure HopStep where
  v : VcId
  upset : Option HopUpset
  deriving DecidableEq, Repr

/-- How a codeword of the vault reads (R313): decoded, with bits that LDPC corrected and after as many shifted-threshold retries;
rebuilt from die parity; or lost. -/
inductive CodewordRead where
  | decoded (bits : Nat) (retries : Fin 9)
  | rebuilt
  | lost
  deriving DecidableEq, Repr

/-- A codeword of the vault: its block, and how it reads. -/
structure VaultCodeword where
  block : Nat
  read : CodewordRead
  deriving DecidableEq, Repr

/-- A STRIPE_WRITE has been programmed: by codeword the blocks that took its shard and then its parity share, the blocks that failed
meanwhile, and whether a failure went beyond the die parity (R304, R314). -/
structure Programmed where
  blocks : List Nat
  failed : List Nat
  lost : Bool
  deriving DecidableEq, Repr

/-- A block is refreshed, and how codewords have come to read since (R313, R315). -/
structure BlockRefresh where
  block : Nat
  aged : List VaultCodeword
  deriving DecidableEq, Repr

/-- The blocks of a retired generation are erased, and those that fail it (R305, R314). -/
structure GenErase where
  generation : BitVec 32
  erased : List Nat
  failed : List Nat
  deriving DecidableEq, Repr

/-- A training frame as received on a lane, with what the lane's receiver asks of the far transmitter: tap and request (R229, R235). -/
structure LaneFrame where
  lane : Fin 4
  bits : List Bool
  ask : Fin 4 × Fin 4
  deriving DecidableEq, Repr

/-- A flooded FENCE: the fold, the module that flooded it, and that module's number of it (R323). -/
structure FenceMsg where
  fold : BitVec 16
  origin : Coord
  number : Nat
  deriving DecidableEq, Repr

/-- A frame of a queue pair: which, and whether it came CE-marked (R278). -/
structure QpFrame where
  q : QpNo
  ce : Bool
  deriving DecidableEq, Repr

/-- What training finds in one DRAM channel (R83, R409). -/
inductive DimmResult where
  | absent
  | mismatch
  | failed
  | trained
  deriving DecidableEq, Repr

/-- One DIMM's SPD and training result: capacity in GiB, rated MT/s, result (R83, R409). -/
structure DimmReport where
  sizeGib : Nat
  ratedMts : Nat
  result : DimmResult
  deriving DecidableEq, Repr

/-- Which object of a counter a write names (R360). -/
inductive CounterField where
  | source
  | filter
  | owner
  deriving DecidableEq, Repr

/-- A buffer use presents a 32-bit handle of R108 or an address in a pool's memory (R109). -/
inductive BufferRef where
  | handle (h : BitVec 32)
  | address (pool : PoolId) (a : Nat)
  deriving DecidableEq, Repr

/-- What a poll of a sensor gives (R353, R354). -/
inductive Reading where
  | value (v : Int)
  | failed
  | absent
  deriving DecidableEq, Repr

/-- The state of a bundle as a neighbour's LINK_EVENT reports it (R252, R260). -/
inductive BundleSt where
  | unused
  | down
  | degraded
  | up
  deriving DecidableEq, Repr

/-- One bundle as a LINK_EVENT reports it: its state, and what its module's plan says of it, so that every module builds from the
same map (R259, R260, log 26). -/
structure BundleRep where
  st : BundleSt
  role : Nat
  dir : Nat
  far : Coord
  selvedge : Bool
  deriving DecidableEq, Repr

/-- What a module of the plan region tells the route coordinator (R260): its new table is BUILT, whether the union of both graphs
has no cycle, and whether it holds no flits under the old bank. -/
structure RouteReport where
  from_ : Coord
  direct : Bool
  drained : Bool
  deriving DecidableEq, Repr

/-- The coordinator's order to switch, direct or drained, with what other modules have reported to it since the last (R260). -/
structure SwitchOrder where
  drained : Bool
  reports : List RouteReport
  deriving DecidableEq, Repr

/-- The three NAK kinds a host answers with (R289). -/
inductive NakKind where
  | remoteAccess
  | invalidRequest
  | remoteOperational
  | rnr
  deriving DecidableEq, Repr

/-- Operations and transports of R279 that the port declines. -/
inductive Unsupported where
  | otherTransport
  | atomic
  | sendInvalidate
  | memoryRegistration
  deriving DecidableEq, Repr

/-- Received frames that are dropped and counted (R276, R279, R280). -/
inductive FrameFault where
  | notServed
  | oversize
  | extraTags
  | unknownQp (qpn : BitVec 24)
  deriving DecidableEq, Repr

/-- An open collective as modules match it: context, group, collective sequence (R192). -/
structure CollKey where
  ctx : CtxId
  group : Nat
  seq : BitVec 32
  deriving DecidableEq, Repr

/-- The commands: one constructor per row of the opcode table, in the table's order. -/
inductive Instr where
  -- clock islands (R17, R18, R21) and the priority class (R25)
  | islandGateRequest (i : IslandId)
  | islandGateGrant (i : IslandId)
  | islandGateTimeout (i : IslandId)
  | islandWake (i : IslandId)
  | islandPowerOff (i : IslandId)
  | islandPowerOn (i : IslandId)
  | islandPowerOnDone (i : IslandId)
  | islandDerate (ch : Channel) (i : IslandId) (data : Bytes)
  | derateApply (i : IslandId)
  | priorityClass (ch : Channel) (c : CtxId) (data : Bytes)
  -- the sequencer
  | commandSend (c : CtxId) (msg : Bytes) (ce : Bool)
  | wordDispatch (c : CtxId)
  | sync (c : CtxId) (w : BitVec 16)
  -- MOVE
  | load (c : CtxId)
  | store (c : CtxId)
  | copy (c : CtxId)
  | dcopy (c : CtxId)
  | put (c : CtxId)
  | get (c : CtxId)
  | hostIn (c : CtxId)
  | hostOut (c : CtxId)
  | movePiece (p : PieceMove)
  | moveComplete (c : CtxId) (w : BitVec 16)
  | moveRetryTimeout (tag : BitVec 16)
  -- ARRAY
  | array (c : CtxId) (rows : Nat) (parity : Option IslandId)
  | frozen (c : CtxId)
  | arrayCommit (c : CtxId)
  | arraySuspend (c : CtxId)
  | arrayResume (c : CtxId)
  -- VECTOR
  | vectorCopy (c : CtxId) (parity : Option DieId)
  | add (c : CtxId) (parity : Option DieId)
  | sub (c : CtxId) (parity : Option DieId)
  | mul (c : CtxId) (parity : Option DieId)
  | div (c : CtxId) (parity : Option DieId)
  | fma (c : CtxId) (parity : Option DieId)
  | axpby (c : CtxId) (parity : Option DieId)
  | max (c : CtxId) (parity : Option DieId)
  | min (c : CtxId) (parity : Option DieId)
  | scale (c : CtxId) (parity : Option DieId)
  | cast (c : CtxId) (parity : Option DieId)
  | relu (c : CtxId) (parity : Option DieId)
  | gelu (c : CtxId) (parity : Option DieId)
  | silu (c : CtxId) (parity : Option DieId)
  | reluBwd (c : CtxId) (parity : Option DieId)
  | geluBwd (c : CtxId) (parity : Option DieId)
  | siluBwd (c : CtxId) (parity : Option DieId)
  | exp (c : CtxId) (parity : Option DieId)
  | log (c : CtxId) (parity : Option DieId)
  | rsqrt (c : CtxId) (parity : Option DieId)
  | sqrt (c : CtxId) (parity : Option DieId)
  | recip (c : CtxId) (parity : Option DieId)
  | tanh (c : CtxId) (parity : Option DieId)
  | sigmoid (c : CtxId) (parity : Option DieId)
  | erf (c : CtxId) (parity : Option DieId)
  | softmax (c : CtxId) (parity : Option DieId)
  | layernorm (c : CtxId) (parity : Option DieId)
  | rmsnorm (c : CtxId) (parity : Option DieId)
  | rowdot (c : CtxId) (parity : Option DieId)
  | softmaxBwd (c : CtxId) (parity : Option DieId)
  | layernormBwd (c : CtxId) (parity : Option DieId)
  | rmsnormBwd (c : CtxId) (parity : Option DieId)
  | rsum (c : CtxId) (parity : Option DieId)
  | rmax (c : CtxId) (parity : Option DieId)
  | csum (c : CtxId) (parity : Option DieId)
  | sumsq (c : CtxId) (parity : Option DieId)
  | adam (c : CtxId) (parity : Option DieId)
  | sgdm (c : CtxId) (parity : Option DieId)
  | clipFactor (c : CtxId) (parity : Option DieId)
  | dropout (c : CtxId) (parity : Option DieId)
  | iadd (c : CtxId) (parity : Option DieId)
  | isub (c : CtxId) (parity : Option DieId)
  | imul (c : CtxId) (parity : Option DieId)
  | vectorCommit (c : CtxId)
  -- SHUTTLE
  | allReduce (c : CtxId)
  | reduceScatter (c : CtxId)
  | allGather (c : CtxId)
  | broadcast (c : CtxId)
  | reduce (c : CtxId)
  | barrier (c : CtxId)
  | scalarAllReduce (c : CtxId)
  | collectiveAdmit (k : CollKey)
  | shuttleAdmitTimeout (k : CollKey)
  | shuttleScale
  | shuttleResult
  | shuttleData
  | shuttleAck
  | shuttleNack
  | shuttleScalar
  | shuttleAbort
  | shuttleStale
  | bobbinResend (id : Nat)
  | handshakeResend (id : Nat)
  | shuttleProgressTimeout (k : CollKey)
  | collectiveCommit (k : CollKey)
  -- CONF
  | defineGroup (c : CtxId)
  | releaseGroup (c : CtxId)
  | setSeed (c : CtxId)
  | setStep (c : CtxId)
  -- AUDIT
  | digestWords (c : CtxId)
  | digestRegion (c : CtxId)
  | snapCounters (c : CtxId)
  -- VAULT
  | stripeWrite (c : CtxId)
  | read (c : CtxId)
  | retireGeneration (c : CtxId)
  | stripeWriteCommit (c : CtxId) (p : Programmed)
  | vaultStripeTimeout (c : CtxId)
  | vaultSpaceTimeout (c : CtxId)
  -- tokens, halts, aborts, resets
  | tokenPost (ch : Channel) (c : CtxId) (data : Bytes)
  | tokenDeadlock (c : CtxId)
  | orderedCompletionRelease (c : CtxId)
  | halt (ch : Channel) (c : CtxId) (data : Bytes)
  | contextHalted (c : CtxId)
  | resume (ch : Channel) (c : CtxId) (data : Bytes)
  | abortFromSeq (ch : Channel) (c : CtxId) (data : Bytes)
  | contextReset (ch : Channel) (c : CtxId) (data : Bytes)
  | contextResetDone (c : CtxId)
  | contextEnable (ch : Channel) (c : CtxId)
  | contextDisable (ch : Channel) (c : CtxId)
  | windowWrite (ch : Channel) (c : CtxId) (sub : Nat) (data : Bytes)
  | windowZeroDone (c : CtxId)
  -- records
  | recordWrite (c : CtxId)
  | ringCredit (c : CtxId) (msg : Bytes) (ce : Bool)
  | hostRingStallTimeout (c : CtxId)
  -- buffer pool manager
  | bpmGrant (p : PoolId)
  | bpmQuotaWaitTimeout (p : PoolId)
  | bpmIncrement (r : Requester) (b : BufferRef) (n : Nat)
  | bpmDecrement (r : Requester) (b : BufferRef)
  -- links
  | codewordReceive (l : LinkId) (symbols : List (BitVec 10))
  | linkAckTimeout (l : LinkId)
  | linkRetrainHoldExpiry (l : LinkId)
  | linkCwBadLimit (l : LinkId)
  | linkEnable (ch : Channel) (l : LinkId)
  | linkDisable (ch : Channel) (l : LinkId)
  | linkSignalDetect (l : LinkId)
  | lossOfSignal (l : LinkId)
  | baseAlignComplete (l : LinkId) (laneMap : List (Fin 4)) (inverted : BitVec 4) (skewNs : Nat)
  | trainingFrame (l : LinkId) (f : LaneFrame)
  | equaliseConverged (l : LinkId) (settings : List Nat)
  | linkCheckEnd (l : LinkId)
  | checkBlock (l : LinkId) (pass : Bool)
  | rateStepSwitch (l : LinkId)
  | rateStepLocked (l : LinkId)
  | linkTrainTimeout (l : LinkId)
  | l1IdleTimeout (l : LinkId)
  | l1Req (l : LinkId)
  | l1Ack (l : LinkId)
  | l1Nak (l : LinkId)
  | l1Keepalive (l : LinkId)
  | l1Exit (l : LinkId)
  | powerRequestLs (ch : Channel) (l : LinkId)
  | powerRequestL0 (ch : Channel) (l : LinkId)
  | lsReq (l : LinkId)
  | lsAck (l : LinkId)
  | lsNak (l : LinkId)
  | lsWake (l : LinkId)
  | lsWakeTimeout (l : LinkId)
  | testMode (ch : Channel) (l : LinkId) (data : Bytes)
  | inject (ch : Channel) (l : LinkId) (data : Bytes)
  | linkReset (ch : Channel) (l : LinkId) (data : Bytes)
  -- fabric network
  | packetReceive (l : LinkId)
  | packetForward (port : Option LinkId) (h : HopStep)
  | linkOutputArbitrate (l : LinkId)
  | bundleReseqTimeout (b : BundleId) (v : VcId)
  | putReceive
  | getReceive
  | getRspReceive
  | ackReceive
  | tokenReceive
  | mgtReceive
  | linkEvent (from_ : Coord) (bundles : List BundleRep)
  | routeBuilt
  | routeSwitch (o : SwitchOrder)
  | routeRebuildTimeout
  | planCommit (ch : Channel) (data : Bytes)
  | rankMapCommit (ch : Channel) (f : FoldSlot) (data : Bytes)
  | foldBinding (ch : Channel) (c : CtxId) (data : Bytes)
  | foldAccept (ch : Channel) (f : FoldSlot) (data : Bytes)
  | foldWaitTimeout (c : CtxId)
  | isolate (ch : Channel) (b : BundleId) (data : Bytes)
  -- host port
  | hostModeRequest (ch : Channel) (data : Bytes)
  | hostLinkUp
  | hostLinkUpTimeout
  | pfcFrame (prio : Nat) (xoff : Bool)
  | arpRequest (target : BitVec 32) (requester : BitVec 48)
  | neighbourSolicitation (target : Bytes) (requester : BitVec 48)
  | echoRequest (v6 : Bool) (target : Bytes) (payload : Bytes)
  | cnp (c : CtxId) (q : QpNo)
  | rateRecover (c : CtxId) (q : QpNo)
  | rdmaWrite (c : CtxId) (q : QpNo) (rkey : BitVec 32) (offset : Nat) (data : Bytes) (ce : Bool)
  | rdmaRead (c : CtxId) (q : QpNo) (rkey : BitVec 32) (offset : Nat) (len : Nat) (ce : Bool)
  | rdmaReadResponse (c : CtxId) (q : QpNo) (data : Bytes) (ce : Bool)
  | rcAck (c : CtxId) (q : QpFrame)
  | rcNak (c : CtxId) (q : QpFrame) (kind : NakKind)
  | rcAckTimeout (c : CtxId) (q : QpNo)
  | mgmtRead (c : CtxId) (msg : Bytes) (ce : Bool)
  | mgmtWrite (c : CtxId) (msg : Bytes) (ce : Bool)
  | qpConnect (ch : Channel) (c : CtxId) (q : QpNo) (data : Bytes)
  | qpReset (ch : Channel) (c : CtxId) (q : QpNo) (data : Bytes)
  | mwCreate (ch : Channel) (c : CtxId) (w : MwNo) (data : Bytes)
  | mwDestroy (ch : Channel) (c : CtxId) (w : MwNo) (data : Bytes)
  -- checkpoint
  | stepBoundary (c : CtxId)
  | ckptBarrierStart (c : CtxId) (waitUs : Nat)
  | patchCopy (stallNs : Nat) (upset : Option Nat)
  | cowStallOverBound (stallUs : Nat)
  | bulkPutReceive
  | bulkGetReceive
  | buddyRestream (ch : Channel) (c : CtxId) (data : Bytes)
  | ckptRollback (ch : Channel) (c : CtxId) (data : Bytes)
  | rollbackDone (c : CtxId) (ok : Bool)
  | ckptAdoptHolder (ch : Channel) (c : CtxId) (data : Bytes)
  | ckptImportDone (ch : Channel) (c : CtxId) (data : Bytes)
  | vaultDieFailure (die : Fin 80)
  | vaultRebuildDone
  | vaultRefresh (r : BlockRefresh)
  -- memory upkeep
  | patrolScrub (chan : DramChan) (r : ScrubResult)
  | zqCalibration (chan : DramChan)
  | dramTrained (reports : List DimmReport)
  -- errors, Goose, health
  | moduleScopeError (e : StateUpset)
  | foldFence (ch : Channel) (f : FoldSlot) (data : Bytes)
  | fenceMessage (f : FenceMsg)
  | gooseBandTrigger (die : DieId)
  | gooseLoadTrigger
  | gooseTile (i : IslandId) (result : Nat) (rerunsOk : Bool) (rowFault : Option (Fin 99))
  | healthClear (ch : Channel) (data : Bytes)
  | gooseRotationDone
  | suspectMark (ch : Channel) (data : Bytes)
  -- management
  | watchdogRestart
  | nmtStart
  | nmtStop
  | nmtEnterPreOperational
  | nmtResetNode
  | nmtResetCommunication
  | usdoRead (index : Nat) (sub : Nat)
  | usdoWrite (index : Nat) (sub : Nat) (data : Bytes) (last : Bool)
  | usdoSegmentTimeout
  | domainCopyExpiry (ch : Channel)
  | time (value : BitVec 48)
  | tpdoEventTimer (n : Fin 4)
  | tpdoValueChange (n : Fin 4)
  | heartbeat
  | emcySend
  | canRxOverrun (lost : Nat)
  | canBusOffRecovered
  | storeParameters (ch : Channel) (data : Bytes)
  | storeComplete
  | restoreDefaultParameters (ch : Channel) (data : Bytes)
  | counterRun (ch : Channel)
  | counterStop (ch : Channel)
  | counterFreeze (ch : Channel)
  | counterClear (ch : Channel)
  | counterConfigure (ch : Channel) (k : CounterId) (field : CounterField) (data : Bytes)
  | sensorPoll (n : SensorId) (r : Reading)
  | sensorStale (n : SensorId)
  | logRecordWrite
  | logMirrorCopy
  | sensorPeakClear (ch : Channel) (data : Bytes)
  | bellwetherClear (ch : Channel) (data : Bytes)
  -- firmware and security
  | fwBegin (ch : Channel)
  | fwEraseComplete
  | fwImage (ch : Channel) (offset : Nat) (data : Bytes)
  | fwVerify (ch : Channel)
  | fwVerifyComplete
  | fwStage (ch : Channel)
  | fwCancel (ch : Channel)
  | ownerKeyEnroll (ch : Channel) (data : Bytes)
  | secureBootFuseCommit (ch : Channel) (data : Bytes)
  | rollbackAdvance (ch : Channel) (data : Bytes)
  | boot
  | bootConfirm
  | quote (ch : Channel)
  -- power states and resets
  | stateRequestActive (ch : Channel)
  | stateRequestQuiet (ch : Channel)
  | stateRequestStandby (ch : Channel)
  | stateRequestMgmtOnly (ch : Channel)
  | stateTransitionComplete
  | idleEntry
  | idleWake
  | quietWake
  | coldReset (straps : BitVec 16)
  | powerDown
  | resetNAssert
  | resetNRelease (straps : BitVec 16)
  | warmResetRequest (ch : Channel)
  | datapathResetDramKept (ch : Channel)
  | datapathResetDramLost (ch : Channel)
  | managementOnlyReset (ch : Channel)
  | resetBegin (straps : BitVec 16)
  | resetComplete
  | overvoltageTrip
  | powerCapTick (averageW : Nat)
  | thermalThrottleTick (die : Fin 5)
  | thermalTrip (n : SensorId)
  | registerWrite (ch : Channel) (index : Nat) (sub : Nat) (data : Bytes)
  | hostLinkDown
  | canErrorPassive (passive : Bool)
  | auditCommit (c : CtxId)
  | vaultReadCommit (c : CtxId)
  | retiredGenerationErase (g : GenErase)
  | exponentScanComplete (k : CollKey)
  | unsupportedOperation (c : CtxId) (q : QpFrame) (kind : Unsupported)
  | otherFrame (kind : FrameFault)
  deriving DecidableEq, Repr

end Sys2Proof
end

