-- ==== Sys2Proof/Config.lean ====
section
/-! DEFINITION. What one built module fixes and the manual does not state (fused identities, factory data), and the free
values: constants without a body, so that no proof can see what they are. -/

namespace Sys2Proof.Config

open Sys2Proof

/-- A byte whose value the manual leaves undefined (R58, R73, R148, R150, R151). The first argument is the model's count of
free values drawn so far, the second the address. Free value (log 4). -/
opaque freeByte : Nat → Nat → Byte

/-- What a DRAM byte holds that nothing has written since DRAM was last lost (R394 code U). The first argument counts the
losses. Free value (log 5). -/
opaque freeDram : Nat → Nat → Byte

/-- A word whose value the manual leaves open: random tags of memory window keys (R287), event-specific data. Free value
(log 6). -/
opaque freeWord : Nat → Nat

/-- The bytes of a table whose contents the manual names and whose layout it does not give (group_table, bellwether_table,
catalog, source_catalogue, eq_snapshot, log data). Free value (log 7). -/
opaque layout : Nat → Nat → List Nat → Bytes

/-- Bytes of a CONTROL record (R293, R295): its fields in a layout the manual does not give. Free value (log 7). -/
opaque controlBytes : List Nat → Bytes

/-- The fields of a CONTROL record read back from its bytes. Free value (log 7). -/
opaque controlFields : Bytes → List Nat

/-- The BULK address at which a Drover reads a peer's vault (R305): generation, tag, kind, byte offset. The manual says that
peers serve such reads and gives no address layout. Free value (log 7). -/
opaque vaultAddr : List Nat → Nat

/-- What a BULK address of a peer's vault names. Free value (log 7). -/
opaque vaultFields : Nat → List Nat

/-- Packets that the management receive buffer holds (R270). The manual gives no size. Free value (log 28). -/
opaque mgtBuffer : Nat

/-- ML-DSA-44 verification of FIPS 204: public key, message, signature, context string (R368). Not given by the manual
(log 8). -/
opaque mldsaVerify : Bytes → Bytes → Bytes → Bytes → Bool

/-- ML-DSA-44 signing with the identity key derived from the fused device seed (R376): message, context string (log 8). -/
opaque mldsaSign : Bytes → Bytes → Bytes

/-- The module's fused serial (R352). -/
opaque moduleSerial : BitVec 64

/-- The fused manufacture date (R352). -/
opaque manufactureDate : BitVec 16

/-- The fused MAC address (R276). -/
opaque macAddress : BitVec 48

/-- The fused hash of the vendor key (R369). -/
opaque vendorKeyHash : BitVec 256

/-- The version of the boot ROM (R377). -/
opaque romVersion : BitVec 32

/-- The identity public key and certificate written at the factory (R376). -/
opaque identityPublicKey : Bytes

/-- The X.509 certificate of the identity key (R376). -/
opaque identityCertificate : Bytes

/-- The 36 fused factory row repairs, one per Loom island: how many rows (R51, R352). -/
opaque factoryRowRepairs : Nat → Nat

/-- The physical row that factory repair k of a Loom island passes over (R51). -/
opaque factoryRow : Nat → Nat → Fin 99

/-- The firmware image the factory wrote into bank A: its manifest header, security version and build are read from these
bytes (R367). -/
opaque factoryImage : Bytes

/-- Lower operating limit of a regulator rail, in mV; the manual names limits and does not give them (R357). -/
opaque railLow : Nat → Int

/-- Upper operating limit of a regulator rail, in mV (R357). -/
opaque railHigh : Nat → Int

/-- The first 256 bytes of the tray's FRU EEPROM, which firmware reads at every boot (chapter 16, Connectors; log 7). -/
opaque trayFru : Nat → Byte

/-- How many grown bad blocks of a vault die take its spare blocks below 2 % (R314): the manual gives neither the spare blocks of a die
nor their number at the factory. Free value (log 24). -/
opaque vaultSpare : Nat → Nat

/-- The factory answer of a Goose tile on an island (R335). -/
opaque gooseAnswer : Nat → Nat → Nat

end Sys2Proof.Config
end

