-- ==== Sys2Proof/Machine/State.lean ====
section
/-! DEFINITION. The state of the module: every register, table, queue and buffer the manual gives it, as plain data, and the
state in which it stands when the management island's reset is first released. -/

namespace Sys2Proof.Machine

open Sys2Proof

/-- A sparse table: entries in strictly rising key order, none equal to what an unlisted key reads as. -/
abbrev Sparse (V : Type) := List (Nat × V)

/-! ### Identity, fuses, dictionary values -/

/-- The three grades of R1. -/
inductive Grade where
  | a | b | n
  deriving DecidableEq, Repr

/-- The fuses that can still be blown in service (R352, R369 to R371): they only ever go from 0 to 1. -/
structure Fuses where
  /-- secure_boot_fused (R352, R372). -/
  secureBoot : Bool
  /-- owner_key_enrolled (R352). -/
  ownerEnrolled : Bool
  /-- owner_key_hash, all zero until enrolled (R370). -/
  ownerHash : Bytes
  /-- The anti-rollback fuse counter: 64 fuses, one per version (R371). -/
  rollback : BitVec 64
  deriving DecidableEq, Repr

/-- The value of a stored dictionary object: a number for the fixed types, bytes for a DOMAIN. -/
inductive Val where
  | num (n : Nat)
  | bytes (b : Bytes)
  deriving DecidableEq, Repr

/-! ### Clock islands (R14, R17, R21, R336, R337) -/

/-- The island states of R17, in code order. -/
inductive IslandState where
  | run | clockGated | powerGated | reset
  deriving DecidableEq, Repr

/-- One clock island. -/
structure Island where
  st : IslandState
  /-- An owner's gate request is waiting for the island to drain (R18). -/
  gateReq : Bool
  /-- A power-on request is running its 10 µs (R17). -/
  poweringOn : Bool
  /-- The four derate requests of R21: operator, Goose, thermal, power cap. -/
  reqOp : BitVec 2
  reqGoose : BitVec 2
  reqThermal : BitVec 2
  reqPower : BitVec 2
  /-- The step the island runs at, as last applied (R21). -/
  effective : BitVec 2
  /-- Goose tiles are due after a clock or voltage step (R336). -/
  tileDue : Bool
  /-- The island failed a tile since the last health_clear (R337 step 4). -/
  failedSinceClear : Bool
  /-- Condemned by Goose (R337 step 5). -/
  condemned : Bool
  /-- A row fault has no spare row left: the refusal of R51. -/
  repairExhausted : Bool
  /-- goose_last_pass_ns (R339). -/
  lastPass : Nat
  /-- The grown row-repair map in NOR: the physical rows that Goose has found faulty since the factory (R51). -/
  grownRows : List Nat
  /-- The grown map that the last datapath reset applied: these rows, and the factory's, are passed over (R51). -/
  rowMap : List Nat
  deriving DecidableEq, Repr

/-! ### Counters (R358 to R362) -/

/-- One event counter: its configuration, its 48-bit value, its overflow bit and its frozen sample. -/
structure Counter where
  source : BitVec 16
  filter : BitVec 32
  owner : BitVec 8
  value : BitVec 48
  overflow : Bool
  sample : BitVec 48
  deriving DecidableEq, Repr

/-- The counter network's states (R361). -/
inductive NetState where
  | run | stopped | frozen
  deriving DecidableEq, Repr

/-! ### Sensors (R353, R354) -/

/-- Sensor status codes 0 to 3. -/
inductive SensorStatus where
  | ok | stale | failed | absent
  deriving DecidableEq, Repr

/-- One sensor. -/
structure Sensor where
  value : Int
  status : SensorStatus
  /-- The highest OK reading since the peaks were cleared; without one it reads 0 (R354). -/
  peak : Option Int
  /-- The sensor is at or above its throttle point and has not yet fallen 3 °C below it (R403). -/
  throttled : Bool
  deriving DecidableEq, Repr

/-! ### Event log (R363 to R365), emergency messages (R356) -/

/-- A log record of R363; the CRC is computed when its bytes are written out. -/
structure LogRec where
  event : BitVec 16
  status : BitVec 8
  detail : BitVec 32
  severity : Nat
  ctx : Option CtxId
  island : BitVec 8
  source : BitVec 16
  bootCount : BitVec 32
  seq : BitVec 32
  ts : Nat
  data : Bytes
  deriving DecidableEq, Repr

/-- The event log: the SRAM queue (oldest first), the NOR ring (oldest first), the Drover's mirror. -/
structure Log where
  queue : List LogRec
  ring : List LogRec
  mirror : List LogRec
  nextSeq : BitVec 32
  /-- Records discarded since the queue last had room, to be told by one 0xFE07 record (R364). -/
  discarded : Nat
  /-- Corrected errors so far per source and island, for log_ce_threshold (R364). -/
  ceCounts : Sparse Nat
  deriving DecidableEq, Repr

/-- A queued EMCY message (R356). -/
structure Emcy where
  code : BitVec 16
  detail : BitVec 32
  source : BitVec 16
  island : BitVec 8
  ctx : Option CtxId
  logSeq : BitVec 32
  deriving DecidableEq, Repr

/-! ### What leaves the module -/

/-- What a frame of the host port carries around its message (R276 to R278): the VID and priority of its tag, where it has one;
DSCP, ECN, UDP source port, the far end's MAC address and QP number. Frames of no QP have only a VID. -/
structure Envelope where
  vid : Option Nat
  pcp : Option Nat
  dscp : Nat
  ecn : Nat
  sport : Nat
  mac : Nat
  qpn : Nat
  deriving DecidableEq, Repr

/-- Messages the module sends, in the order sent (the model's own record of its outputs, log 3). -/
inductive Out where
  /-- The answer to a dictionary write: abort code, 0 for success. -/
  | wrote (ch : Channel) (index sub : Nat) (abort : BitVec 32)
  /-- The answer to a dictionary read. -/
  | readOk (ch : Channel) (index sub : Nat) (data : Bytes)
  | readAbort (ch : Channel) (index sub : Nat) (abort : BitVec 32)
  | mgmtResponse (c : CtxId) (msg : Bytes)
  | rdmaWriteImm (c : CtxId) (va : Nat) (rkey : Nat) (imm : BitVec 32) (data : Bytes)
  | rdmaWrite (c : CtxId) (q : QpNo) (va : Nat) (rkey : Nat) (data : Bytes)
  | rdmaReadReq (c : CtxId) (q : QpNo) (va : Nat) (rkey : Nat) (len : Nat)
  | rdmaReadResp (c : CtxId) (q : QpNo) (data : Bytes)
  | rcAck (c : CtxId) (q : QpNo)
  | rcNak (c : CtxId) (q : QpNo) (k : NakKind)
  | rnrNak (c : CtxId) (q : QpNo) (code : Nat)
  | cnp (c : CtxId) (q : QpNo)
  | arpReply (mac : BitVec 48) (ip : BitVec 32)
  | neighbourAdvert (mac : BitVec 48) (ip : Bytes)
  | echoReply (v6 : Bool) (payload : Bytes)
  | emcy (code : BitVec 16) (register : BitVec 8) (field : Bytes)
  | tpdo (n : Fin 4) (data : Bytes)
  | heartbeat (st : Nat)
  | bootUp
  | packet (l : LinkId) (pkt : Packet)
  | linkReplay (l : LinkId) (from_ : BitVec 12)
  | power (l : LinkId) (code : Nat)
  | checkBlock (l : LinkId) (pass : Bool)
  /-- A training frame on one lane at a rate, its 320 bits in the order sent (R229). -/
  | frame (l : LinkId) (lane : Fin 4) (rate : Nat) (bits : List Bool)
  | idle (l : LinkId)
  /-- A link in TEST sends a pattern at a rate, or what its lanes received (R239). -/
  | pattern (l : LinkId) (mode rate : Nat)
  | looped (l : LinkId) (symbols : List (BitVec 10))
  /-- A frame of the host port (R276). -/
  | framed (e : Envelope) (o : Out)
  deriving DecidableEq, Repr

/-! ### Management controller (R341 to R349) -/

/-- NMT states of R345. -/
inductive Nmt where
  | initialisation | preOperational | operational | stopped
  deriving DecidableEq, Repr

/-- A segmented USDO download in progress (R344, R347). -/
inductive Usdo where
  | idle
  | writing (index sub : Nat) (got : Bytes)
  deriving DecidableEq, Repr

/-- The copy of a DOMAIN held for a channel (R348). -/
structure DomainCopy where
  index : Nat
  sub : Nat
  bytes : Bytes
  deriving DecidableEq, Repr

/-- A store in progress (R349): the answer its write gets, the copy that is erased, and the captured values. -/
structure Store where
  answer : Out
  copy : Nat
  values : Sparse Val
  deriving DecidableEq, Repr

/-- One copy of the dictionary store in NOR (R341, R349). -/
structure StoreCopy where
  valid : Bool
  count : Nat
  values : Sparse Val
  deriving DecidableEq, Repr

/-- What the management controller holds for one channel: the DOMAIN copy (R348), log_read_from and log_source (R365), the
quote nonce (R377). Channel numbers: 0 to 3 the management QPs, 4 CAN FD. -/
structure ChanState where
  copy : Option DomainCopy
  logFrom : BitVec 32
  logSource : BitVec 8
  nonce : Option Bytes
  quote : Bytes
  deriving DecidableEq, Repr

/-- The management controller. -/
structure Mgmt where
  nmt : Nmt
  nodeId : Nat
  canRate : Nat
  usdo : Usdo
  chans : Vector ChanState 5
  emcyQ : List Emcy
  /-- error_history, newest first, at most 16 (R351, R356). -/
  history : List (BitVec 32)
  /-- An EMCY has been raised since the error register last read 0, so 0x0000 is owed when it clears (R357). -/
  errOwed : Bool
  /-- The CAN controller is error-passive (R357). -/
  canPassive : Bool
  busOffCount : Nat
  restarts : BitVec 32
  store : Option Store
  copies : Vector StoreCopy 2
  /-- Management messages received and not yet handled (R270). -/
  mgtRx : List Packet
  /-- The last value sent in each TPDO, for TPDO_VALUE_CHANGE (R355). -/
  tpdoLast : Vector Bytes 4
  deriving DecidableEq, Repr

/-! ### Power states, resets and straps (chapter 15, R398 to R405) -/

/-- The module states of R382; OFF has no code. -/
inductive ModState where
  | active | idle | quiet | standby | mgmtOnly | off
  deriving DecidableEq, Repr

/-- The resets of R387 that stop engines, by scope (R388). -/
inductive ResetKind where
  | cold | warm | dpLost | dpKept | mgmtOnly
  deriving DecidableEq, Repr

/-- Where a boot stands (R373, R374, R396). -/
inductive BootPhase where
  | rom | running | bootLoop
  deriving DecidableEq, Repr

/-- Power, resets, straps and thermal control. -/
structure Pwr where
  modState : ModState
  /-- The transition state_request started, if one is in progress (R385). -/
  transition : Option ModState
  straps : BitVec 16
  boot : BootPhase
  /-- The reset now running: kind and cause code (R388, R390). -/
  resetting : Option ResetKind
  /-- A management-only reset runs beside another reset (R388). -/
  mgmtResetting : Bool
  /-- A reset accepted and due to begin (R387: 10 ms after its answer). -/
  resetDue : Option ResetKind
  resetNLow : Bool
  lastCause : Nat
  dpResetCount : BitVec 32
  bootCount : BitVec 32
  inputW : Nat
  /-- Energy drawn, in mJ: input_energy_j is its thousandth part (R411). -/
  energyMj : Nat
  /-- Whole 1 ms ticks below 95 % of the cap since the last step (R401). -/
  capQuietMs : Nat
  /-- Whole 10 ms ticks below 92 °C since the last thermal step, per die (R404). -/
  coolTicks : Vector Nat 5
  tripCount : BitVec 32
  inputFaults : BitVec 32
  /-- A critical sensor trip holds ACTIVE off (R405). -/
  tripped : Bool
  /-- The last input voltage fault seen: 0 none, 2 brown-out pending (R398). -/
  brownOut : Bool
  moduleScopeFault : Bool
  deriving DecidableEq, Repr

/-! ### DRAM channels (R83 to R87) -/

/-- One memory channel's objects. -/
structure MemChan where
  present : Bool
  sizeGib : Nat
  ratedMts : Nat
  st : Nat
  ceCount : BitVec 32
  ueCount : BitVec 32
  lastError : Nat
  failMap : BitVec 32
  /-- Of each device n, at key 64·n + i, the time plus 1 of its last corrected error but i (R85). -/
  ceByDevice : Sparse Nat
  deriving DecidableEq, Repr

/-- The memory subsystem: channels, module-wide state, and the lines and words known to hold uncorrectable errors. -/
structure MemSys where
  chans : Vector MemChan 24
  dramState : Nat
  rateMts : Nat
  /-- 64-byte DRAM units that hold an uncorrectable error (R85). -/
  badUnits : List Nat
  /-- 64-bit scratchpad words that hold an uncorrectable error (R80). -/
  badWords : List Nat
  /-- 64-byte DRAM units that hold errors confined to one x4 device, with that device: every read corrects them (R85). -/
  weakUnits : List (Nat × Nat)
  /-- 64-bit scratchpad words that hold a single-bit error: every read corrects it (R80). -/
  weakWords : List Nat
  spadCe : BitVec 32
  spadUe : BitVec 32
  /-- spad_pool_region in force, MiB: a write takes effect at the next warm reset (R81, R87). -/
  spadPool : Nat
  /-- Next line of each channel's patrol scrub (R86). -/
  patrol : Vector Nat 24
  /-- How often each channel has lost its contents: names the free values an unwritten byte reads as (R17, R394 code U). -/
  dramEpochs : Vector Nat 24
  /-- Address ranges of DRAM zeroed as a window gained them (R87): start, length, channels that have lost them since. -/
  zeroed : List (Nat × Nat × List Nat)
  deriving DecidableEq, Repr

/-! ### Buffer pool manager (R107 to R114) -/

/-- An allocated buffer. -/
structure Buf where
  owner : Requester
  refs : Nat
  deriving DecidableEq, Repr

/-- What a BPM request is for: a GET window of a MOVE slot, host staging, an inbound PUT held in a link buffer, an admission. -/
inductive BpmWhy where
  | get (c : CtxId) (uid : Nat)
  | host (c : CtxId) (uid : Nat)
  | inbound (c : CtxId)
  | admission (k : CollKey)
  | drover (c : CtxId)
  deriving DecidableEq, Repr

/-- A waiting reservation (R112). -/
structure BpmReq where
  who : Requester
  n : Nat
  why : BpmWhy
  deriving DecidableEq, Repr

/-- One pool, as its definition was latched at the last datapath reset (R107). -/
structure Pool where
  /-- 0 undefined, 1 hub SRAM, 2 to 5 scratchpad C0 to C3. -/
  memory : Nat
  sizeLog2 : Nat
  count : Nat
  base : Nat
  /-- Buffers 0 to `fresh` − 1 have been handed out at least once; the others stand first in the free list. -/
  fresh : Nat
  /-- The free list behind the fresh buffers, head first (R110). -/
  freed : List Nat
  alloc : Sparse Buf
  reserved : Sparse Nat
  waiting : List BpmReq
  quarantined : List Nat
  lowWater : Nat
  deriving DecidableEq, Repr

/-! ### Contexts (chapter 05) -/

/-- Context states of R146, in code order. -/
inductive CtxState where
  | disabled | enabled | halting | halted | faulted | resetting
  deriving DecidableEq, Repr

/-- Why a context is HALTING or HALTED. -/
inductive HaltCause where
  | none | halt | abort | fault
  deriving DecidableEq, Repr

/-- Engines 0 to 6 of R119. -/
inductive Eng where
  | move | array | vector | shuttle | vault | audit | conf
  deriving DecidableEq, Repr

/-- An address range of a fault record (R155): space, rank, start, length. -/
structure FaultRange where
  space : Nat
  rank : Nat
  start : Nat
  length : Nat
  deriving DecidableEq, Repr

/-- A fault of a context: what the FAULT record tells (R155, R156). -/
structure FaultInfo where
  status : BitVec 8
  detail : BitVec 32
  eng : Nat
  wordSeq : BitVec 16
  tokenId : BitVec 12
  step : BitVec 64
  ordered : Bool
  range0 : FaultRange
  range1 : FaultRange
  island : BitVec 8
  ts : Nat
  deriving DecidableEq, Repr

/-- A slot in an engine queue: its word (uid counts the context's dispatched words), its bytes, and what its word took at
dispatch: seed, step (R142) and priority class (R25). `words` holds the closed word digest's bytes for an AUDIT slot that
closes one (R332). -/
structure QSlot where
  uid : Nat
  seq : BitVec 16
  eng : Eng
  bytes : Bytes
  seed : BitVec 64
  step : BitVec 64
  cls : Nat
  words : Bytes
  deriving DecidableEq, Repr

/-- A dispatched word that is not yet retired. -/
structure WordRec where
  uid : Nat
  seq : BitVec 16
  fence : Bool
  ordered : Bool
  stepBoundary : Bool
  hasSync : Bool
  syncTargets : BitVec 7
  syncId : BitVec 12
  userTag : BitVec 32
  step : BitVec 64
  /-- Engines whose slot of this word has not committed. -/
  left : List Eng
  /-- The SYNC emit, where there is one, has fired. -/
  syncFired : Bool
  completed : Bool
  /-- An abort has written the word's WORD record (R150): its emit writes no second one. -/
  told : Bool
  deriving DecidableEq, Repr

/-- A record of R153, as written: its 64 bytes and its record_seq; and the word it belongs to, where it is of a word (R141). -/
structure Record where
  seq : BitVec 32
  uid : Option Nat
  bytes : Bytes
  deriving DecidableEq, Repr

/-- States of a QP (R281). -/
inductive QpState where
  | reset | rts | error
  deriving DecidableEq, Repr

/-- A request of the module outstanding on a QP (R284, R289, R290): a READ or WRITE of a piece of a MOVE slot, with the data in
its staging buffers; a record; a management response. -/
inductive HostReq where
  | read (uid : Nat) (piece : Nat) (addr : Nat) (rkey : Nat) (len : Nat)
  | write (uid : Nat) (addr : Nat) (rkey : Nat) (data : Bytes)
  | record (seq : BitVec 32)
  | mgmt (msg : Bytes)
  deriving DecidableEq, Repr

/-- One RC queue pair (R280, R281). -/
structure Qp where
  st : QpState
  sendPsn : Nat
  expPsn : Nat
  /-- Send rate in Mbit/s under congestion control (R278). -/
  rate : Nat
  outstanding : List HostReq
  retries : Nat
  rnrRetries : Nat
  /-- When the QP last sent a CNP, and when one last lowered its rate (R278). -/
  cnpTx : Option Nat
  cnpRx : Option Nat
  /-- When the last CNP came or the rate last grew: the next growth counts from there (R278). -/
  rateSince : Nat
  deriving DecidableEq, Repr

/-- A memory window's key and what it named when it was created (R287). -/
structure Mw where
  key : Option (BitVec 32)
  lastTag : BitVec 26
  space : Nat
  base : Nat
  length : Nat
  access : BitVec 8
  deriving DecidableEq, Repr

/-- Where a STEP_BOUNDARY word holds the context's dispatch (R142, R293, R296): not at all, until the word completes, until
the barrier may start, or until the snapshot barrier's result. -/
inductive StepHold where
  | none | word (uid : Nat) | ready | barrier
  deriving DecidableEq, Repr

/-- One context. -/
structure Ctx where
  st : CtxState
  cause : HaltCause
  expected : BitVec 16
  /-- The command queue: the undispatched rest of each SEND, oldest first (R117). -/
  cmdQ : List Bytes
  queues : Vector (List QSlot) 7
  words : List WordRec
  /-- The word that last_committed_seq names, once a word has completed: an abort still reports it (R150). -/
  lastWord : Option WordRec
  nextUid : Nat
  /-- The engine whose slot raised the fault, for engine_state (R145). -/
  faultEng : Nat
  pendingFault : Option FaultInfo
  /-- Token counts, key engine × 4096 + ID (R133). -/
  heddle : Sparse Nat
  lastCommitted : BitVec 16
  recordSeq : BitVec 32
  /-- Records produced and not yet written to the ring (R285). -/
  recordQ : List Record
  /-- Records written and not yet acknowledged by RC (R286). -/
  unacked : List Record
  consumed : BitVec 32
  faultRec : Bytes
  heddleDump : Bytes
  /-- The bytes of the words since the last closed word digest (R332). -/
  wordBytes : Bytes
  seed : BitVec 64
  step : BitVec 64
  stepHold : StepHold
  /-- A window object is being zeroed: the answer its write gets, its sub-index and new value (R82, R87). -/
  windowPending : Option (Out × Nat × Nat)
  /-- The head slots of the VAULT and CONF queues that are ready: engine, word, and a number that grows in the order in which
  slots of the module became ready (R132). -/
  line : List (Eng × Nat × Nat)
  /-- TOKEN packets in transit when the context was disabled, by source and tag: discarded on arrival (R146). -/
  voided : List (Nat × Nat)
  qps : Vector Qp 18
  mws : Vector Mw 16
  deriving DecidableEq, Repr

/-! ### MOVE (R94 to R106) -/

/-- One MOVE slot that has started and passed its checks. -/
structure MoveJob where
  c : CtxId
  slot : QSlot
  /-- Pieces not yet taken by a channel, by number. -/
  nextPiece : Nat
  pieces : Nat
  /-- GET: windows of the next piece already issued (R101). -/
  win : Nat
  /-- Remote or host packets still to be answered (DRAINING). -/
  outstanding : Nat
  /-- For a GET with an indirect destination: the next response to apply in order (R101). -/
  nextApply : Nat
  /-- Index values of an indirect source and of an indirect destination, as read and checked at the start (R97). -/
  srcIx : List Nat
  dstIx : List Nat
  /-- The remote TOKEN has been sent (R138). -/
  tokenSent : Bool
  /-- Buffers of pool 0 reserved for GET responses (R101), of pool 1 for host staging (R105). -/
  reserved : Nat
  waitingBpm : Bool
  /-- The fault a remote answer or a transport gave, to be taken once nothing is outstanding. -/
  failed : Option (BitVec 8 × BitVec 32)
  deriving DecidableEq, Repr

/-- Who waits for the answer of a fabric packet. -/
inductive FlightOwner where
  | slot (c : CtxId) (uid : Nat)
  /-- Something that has ended without the answers to its packets: a MOVE slot, or a stream or VAULT slot of the Drover (R261). -/
  | orphan (move : Bool)
  | buddy (c : CtxId)
  | shard (c : CtxId) (uid : Nat)
  deriving DecidableEq, Repr

/-- A packet sent and not yet answered (R103), and where a GET's data goes. -/
structure Flight where
  tag : BitVec 16
  owner : FlightOwner
  pkt : Packet
  rank : Nat
  resends : Nat
  /-- Position among the slot's packets, for the order of R101. -/
  index : Nat
  /-- Local destination of a GET: address space, address. -/
  toDram : Bool
  toAddr : Nat
  /-- A checked GET response waiting for lower positions (R101). -/
  answer : Option Bytes
  /-- Not yet injected: a FENCE packet not yet released (R261), or no room in the congestion window (R104). -/
  held : Bool
  deriving DecidableEq, Repr

/-- The congestion window of one destination (R104). -/
structure Cwnd where
  size : Nat
  /-- ACKs since the current window's worth began, and how many make it up. -/
  acks : Nat
  span : Nat
  halved : Bool
  deriving DecidableEq, Repr

/-- The MOVE engine. -/
structure MoveEng where
  jobs : List MoveJob
  flights : List Flight
  /-- Windows by destination coordinates. -/
  cwnd : Sparse Cwnd
  nextTag : BitVec 16
  /-- The context that took the last piece, for the round-robin of R96. -/
  lastCtx : CtxId
  deriving DecidableEq, Repr

/-! ### Loom and vector engines (chapters 03, 06) -/

/-- A destination write computed and not yet shown as committed is already in memory; an ARRAY job records how far it has
come: position batch × group × pair × row in units of R60. -/
structure ArrayJob where
  c : CtxId
  slot : QSlot
  /-- Row steps done. -/
  done : Nat
  /-- Row steps in all. -/
  total : Nat
  /-- Suspended at a segment boundary (R73). -/
  suspended : Bool
  /-- Resumed from altered bytes of the save area: what it writes is undefined (R73). -/
  tainted : Bool
  /-- What its suspension wrote to the save areas: address and bytes (R73, R74). -/
  saved : List (Nat × Bytes)
  /-- The operand bytes as they stood at the start: where another engine has changed them since, what is computed from them is
  undefined (R57). -/
  image : List (Nat × Bytes)
  deriving DecidableEq, Repr

/-- A set of stationary banks across the Loom: the slice of B that one pass of a slot holds, as stored codes by k × 2^17 + n (an
MX scale above the code), and the maximum exponent of each column of each segment's slice, by segment × 2^17 + n (R50, R60,
R64). -/
structure Banks where
  c : CtxId
  uid : Nat
  pass : Nat
  cells : Sparse Nat
  exps : Sparse Int
  /-- Columns of a segment, keyed as `exps`, whose operand bytes another engine had written: what is computed from them is
  undefined (R57). -/
  undef : List Nat
  deriving DecidableEq, Repr

/-- The take-up stream of an ARRAY slot (R71, R72): values by linear index of the result, as bits of the partial type, in the
order delivered to the queues. It outlives the slot's commit until its consumer has taken it. -/
structure TakeUp where
  c : CtxId
  uid : Nat
  vals : Sparse Nat
  /-- Every value has been delivered. -/
  whole : Bool
  /-- The slot was FROZEN (R181): no stream. -/
  frozen : Bool
  /-- The slot resumed from altered bytes (R73): the values are undefined. -/
  tainted : Bool
  /-- The partial type the values are in (R67): 0 FP32, 1 FP64, 2 a 64-bit integer. -/
  part : Nat
  /-- Bytes the stream has put into the queues of V0 to V3 (R72). -/
  held : Vector Nat 4
  deriving DecidableEq, Repr

/-- A VECTOR slot that has started; `computed` once its result stands in memory (a consumer of a take-up stream computes when
the stream is whole, at its commit). -/
structure VecJob where
  c : CtxId
  slot : QSlot
  computed : Bool
  deriving DecidableEq, Repr

/-- An AUDIT slot that has started: its digest or its counter image, and the word digest it closes. -/
structure AuditJob where
  c : CtxId
  slot : QSlot
  digest : Bytes
  deriving DecidableEq, Repr

/-! ### Goose and module health (R335 to R339) -/

/-- Goose and module health. -/
structure Goose where
  /-- suspect_cause: [0] Goose Loom, [1] Goose vector, [2] row repair exhausted, [3] Tally, [4] operator (R339). -/
  cause : BitVec 8
  tilesRun : Nat
  /-- The 5 °C band each die is in, once read, and the band it left last, until the reading has been 1 °C beyond the boundary of
  that one (R336). -/
  bands : Vector (Option (Int × Option Int)) 4
  /-- The full rotation after health_clear is still to end; ARRAY and VECTOR slots wait (R338). -/
  rotating : Bool
  deriving DecidableEq, Repr

/-! ### Links (chapter 08) -/

/-- Link states of R231 in code order. -/
inductive LinkState where
  | disabled | detect | baseAlign | exchange | rateStep | equalise | check | l0 | l1 | ls | retrain | held | test
  deriving DecidableEq, Repr

/-- A flit in the replay buffer or in an input buffer: its 64 bytes. -/
structure Flit where
  seq : BitVec 12
  bytes : Bytes
  deriving DecidableEq, Repr

/-- A whole packet in an input or output buffer, with its fixed VC. -/
structure Held where
  vc : VcId
  pkt : Packet
  deriving DecidableEq, Repr

/-- One fabric link. -/
structure Link where
  st : LinkState
  rate : Nat
  heldReason : Nat
  nbr : BitVec 256
  level : Nat
  /-- IDENT fragments of the neighbour received since CHECK began. -/
  ident : Sparse Nat
  frameCount : BitVec 8
  /-- Rate steps (R233): target, consecutive frames of each lane naming it, frames sent since all had 8, rates passed. -/
  targetRate : Nat
  stepSeen : Vector Nat 4
  stepSent : Nat
  stepReady : Bool
  passed : Nat
  fallback : Bool
  fromRetrain : Bool
  fromLs : Bool
  retrainHeld : Bool
  /-- Per lane: consecutive frames in which both receivers ask for nothing, and what the own receiver asks for, eq_tap and eq_req
  (R230, R235). -/
  eqQuiet : Vector Nat 4
  eqAsk : Vector (Fin 4 × Fin 4) 4
  checkOwn : Option Bool
  checkNbr : Option Bool
  checkBad : Nat
  checkSer : Nat
  checkSymbols : Nat
  laneMap : List (Fin 4)
  inverted : BitVec 4
  /-- Transmit FFE per lane: the magnitudes of c(−1) and c(1) in 64ths, and the answer to the neighbour's last request (R235). -/
  ffe : Vector (Nat × Nat) 4
  eqAns : Vector Nat 4
  /-- Stored equaliser settings by rate (R235). -/
  eqStored : Sparse (List Nat)
  prbsErrors : Vector (BitVec 32) 4
  prbsLocked : BitVec 4
  /-- The last 31 bits of each lane's expected pattern, newest first, and the bits a lane has checked since inject was written
  (R239). -/
  prbsReg : Vector (List Bool) 4
  injectBits : Nat
  /-- Transmit side: next flit sequence, last acknowledged, replay buffer, replays without advance. -/
  txSeq : BitVec 12
  lastAck : BitVec 12
  replay : List Flit
  replays : Nat
  /-- The packet being sent and its flits not yet in the replay buffer (R225). -/
  txNow : Option Packet
  txRest : List Bytes
  /-- Receive side: next expected flit, waiting for retransmission, the flits of the packet being gathered. -/
  rxSeq : BitVec 12
  rxWaiting : Bool
  /-- Flit sequence and blocks of the flit at the end of the last good codeword, to be continued (R226). -/
  rxPart : Option (BitVec 12 × List Bytes)
  rxScram : BitVec 58
  rxFlits : List Bytes
  /-- The acknowledgement the next marker carries: true for NAK. -/
  sendNak : Bool
  /-- Packets received in whole, per arrival, waiting for the checks of R246. -/
  arrived : List Packet
  /-- Packets accepted and waiting in the input buffer (R248, R254). -/
  inBuf : List Held
  /-- Packets routed to this link and waiting for arbitration (R250). -/
  txQ : List Held
  /-- Flits sent and not credited, per VC (R248); credits owed to the neighbour. -/
  sent : Vector Nat 8
  owed : Vector Nat 8
  /-- Packets sent whose credit has not come back in full, oldest first: VC and flits still to be credited (R253). -/
  uncredited : List (VcId × Nat)
  /-- Deficit counters of COL, REQ, RSP, BULK, and which of lo and hi goes next (R250). -/
  deficit : Vector Nat 4
  hiNext : Vector Bool 4
  /-- Flits of MGT sent in the current 10 µs interval, and the interval's start (R250). -/
  mgtFlits : Nat
  mgtSince : Nat
  reqSent : Bool
  deriving DecidableEq, Repr

/-! ### Fabric network (chapter 09) -/

/-- One bundle. -/
structure Bundle where
  role : Nat
  dir : Nat
  tag : Nat
  planned : BitVec 36
  minLinks : Nat
  far : Coord
  accept : Bool
  selvedge : Bool
  folds : List (BitVec 16)
  epoch : BitVec 16
  st : BundleSt
  /-- Links that joined through EXCHANGE (R251, R232). -/
  members : List LinkId
  /-- Next sequence sent and next expected, per VC (R253, R254). -/
  txSeq : Vector (BitVec 12) 8
  rxSeq : Vector (BitVec 12) 8
  /-- Sequence numbers ahead of the next expected whose packets a port down has dropped (R263). -/
  gone : List (VcId × BitVec 12)
  deriving DecidableEq, Repr

/-- Fold states of R269 in code order. -/
inductive FoldState where
  | unplanned | forming | ready | deviated | accepted
  deriving DecidableEq, Repr

/-- One fold slot: what a commit has put in force (R265, R266, R269, R330, R323). -/
structure Fold where
  st : FoldState
  deviation : BitVec 32
  rankMap : Bytes
  generation : BitVec 32
  committed : Bool
  homes : Bytes
  /-- Home coordinates are to be recorded at the next rank_map_commit (R330). -/
  homeDue : Bool
  fenced : Bool
  /-- What the fold's tolerance was last held against: DOWN bundles of the worst member, of all members, DEGRADED bundles,
  members that cannot be reached (R269). -/
  seen : List Nat
  deriving DecidableEq, Repr

/-- A packet at its destination, and the link and VC whose input buffer it holds until it is consumed (R112, R248). -/
structure Rx where
  pkt : Packet
  via : Option (LinkId × VcId)
  deriving DecidableEq, Repr

/-- The fabric network of the module. -/
structure Net where
  own : Coord
  lo : Coord
  hi : Coord
  wrap : BitVec 8
  bundles : Vector Bundle 16
  folds : Vector Fold 4
  /-- Route entries by R255 index; unlisted is UNREACHABLE (0x0C). -/
  routes : Sparse (BitVec 8)
  /-- Turn masks by bank, port, incoming and outgoing sub; unlisted is 0 (R258). -/
  turns : Sparse (BitVec 16)
  bank : Bool
  rebuilding : Bool
  /-- Built into the inactive bank: a direct switch is possible (R260). -/
  built : Option Bool
  /-- Channel dependency graphs of the bank in use and of the bank built last (R259, R260). -/
  graph : List (Nat × Nat)
  graphNext : List (Nat × Nat)
  generation : BitVec 32
  timedOut : Bool
  /-- The link map (R259): bundle states of each module of the plan, by coordinates. -/
  linkMap : Sparse (List BundleRep)
  /-- The coordinator's reports of the present rebuild, by coordinates; the own drained report has gone out (R260). -/
  reports : Sparse RouteReport
  toldDrained : Bool
  /-- The input each output bundle and VC served last: links 0 to 35, 36 the local engines (R250). -/
  served : Sparse Nat
  /-- Packets of local engines waiting for injection, oldest first. -/
  inject : List Held
  /-- Packets delivered to this module and waiting for their consumer. -/
  localRx : List Rx
  /-- Applied TOKENs: (src, context, tag, time) (R263). -/
  tokens : List (Nat × Nat × Nat × Nat)
  /-- LINK_EVENT, RANK_MAP and FENCE messages go out as MGT floods; the last flood number sent. -/
  floods : Nat
  /-- FENCE messages that have come by flooding: who sent each, and its number there (R323). -/
  fencesSeen : List (Coord × Nat)
  deriving DecidableEq, Repr

/-! ### Host port (chapter 10) -/

/-- The host port. -/
structure HostPort where
  /-- 0 to 2 the modes of R274, 3 off, 4 no link. -/
  mode : Nat
  /-- The mode now being tried (R275). -/
  trying : Nat
  /-- PFC: what the far end has asked for on each of 8 priorities. -/
  paused : BitVec 8
  /-- Messages held back by PFC, oldest first (R277). -/
  waiting : List Out
  deriving DecidableEq, Repr

/-! ### Shuttle (chapter 07) -/

/-- A group definition (R128, R187, R188): its ring table in table order, as (die, rank). -/
structure Group where
  ctx : CtxId
  id : Nat
  ring : List (Nat × Nat)
  /-- Home coordinates of the ring's members as the definition read them (R189, R330). -/
  coords : List Coord
  epoch : BitVec 16
  proto : BitVec 8
  wire : Nat
  pool : PoolId
  bobbinLog2 : Nat
  level : Nat
  /-- member_hash of R188. -/
  hash : BitVec 64
  /-- The expected collective sequence (R192). -/
  expected : BitVec 32
  deriving DecidableEq, Repr

/-- A Shuttle message or bobbin, assembled: the module it came from, its context, the header of R205, its data. -/
structure ShMsg where
  src : Coord
  ctx : CtxId
  /-- Fold ID of its packets: a handshake message of a fold that no context holds yet is held under it (R200, R208). -/
  fold : Nat
  hdr : BitVec 512
  data : Bytes
  deriving DecidableEq, Repr

/-- A bobbin sent and not acknowledged (R207, R209), or a handshake message that a NACK refused (R200). -/
structure ShSent where
  id : Nat
  /-- Hierarchical indices of the sending member and of the member it goes to. -/
  sender : Nat
  dest : Nat
  hdr : BitVec 512
  data : Bytes
  resends : Nat
  /-- The BPM buffer of the bobbin, in the group's pool. -/
  buf : Option Nat
  deriving DecidableEq, Repr

/-- A report of the scale round (R198): exponents (one, or one per block), the non-finite flag, the member named last (R218). -/
structure Report where
  emax : List Int
  nonfinite : Bool
  named : Nat
  deriving DecidableEq, Repr

/-- A received bobbin that goes on: its data as they travel, its running Tally, the BPM buffer it lies in (R203, R207, R211). -/
structure ShHeld where
  data : Bytes
  tally : Nat
  buf : Option Nat
  deriving DecidableEq, Repr

/-- What a member keeps of a bobbin: the stage it ended in, the phase, the elements, the running Tally (R207, R211). -/
structure ShKept where
  stage : Nat
  inward : Bool
  first : Nat
  count : Nat
  tally : Nat
  deriving DecidableEq, Repr

/-- A bobbin that a member has still to send: stage, phase, direction, hop, destination, first element, elements. One that the member
begins is formed when it goes; a forwarded one is held (R201, R203). -/
structure ShTask where
  stage : Nat
  inward : Bool
  backward : Bool
  hop : Nat
  dest : Nat
  first : Nat
  count : Nat
  held : Option ShHeld
  deriving DecidableEq, Repr

/-- One member of a collective on this module. -/
structure ShMember where
  h : Nat
  die : Nat
  rank : Nat
  /-- Reports received from right-subtree heads, in arrival order: (head, report, arrival time). -/
  reports : List (Nat × Report × Nat)
  /-- When the member's own scan ended (R195). -/
  readyAt : Option Nat
  sentUp : Bool
  result : Option Report
  /-- SCALAR values received (head, FP64 bits), and the total (R217). -/
  scalars : List (Nat × Nat)
  scalarSent : Bool
  total : Option Nat
  /-- Outward and inward stages begun, as positions in the list of nonempty stages. -/
  outStage : Nat
  inStage : Nat
  /-- Staging: the integers of the stage pieces this member owned, by element index (R202). -/
  acc : Sparse Int
  /-- Bytes of the inward phase, by position: totals as INT32, or data (R203). -/
  raw : Sparse Byte
  /-- What was kept, with its running Tallies (R211), and what the package stage has written to this member's destination (R212). -/
  kept : List ShKept
  wrote : List (Nat × Nat)
  /-- Chunks received: (stage, phase, direction, chunk) (R207). -/
  seen : List (Nat × Bool × Bool × Nat)
  tasks : List ShTask
  committed : Bool
  deriving DecidableEq, Repr

/-- Where a started collective stands (R193). -/
inductive CollPhase where
  | place | reservation | admitted
  deriving DecidableEq, Repr

/-- A collective of this module: its slot, or the checkpoint barrier of the Drover (R296). -/
structure Coll where
  key : CollKey
  slot : QSlot
  drover : Bool
  phase : CollPhase
  /-- The group as it stood at the start. -/
  group : Group
  /-- Members of the group by hierarchical index: (rank, die). -/
  order : List (Nat × Nat)
  /-- Extents p, X, Y, Z and, per axis x, y, z, whether it is wrapped (R201). -/
  extents : Nat × Nat × Nat × Nat
  wrapped : Bool × Bool × Bool
  members : List ShMember
  sent : List ShSent
  reserved : Nat
  deriving DecidableEq, Repr

/-- A collective that is over on this module: whether it was admitted, how many members here had committed, and whether an ABORT
notice of it has passed this module (R200, R213). -/
structure ShEnded where
  key : CollKey
  admitted : Bool
  committed : Nat
  noticed : Bool
  deriving DecidableEq, Repr

/-- The Shuttle. -/
structure Shut where
  groups : List Group
  colls : List Coll
  early : List ShMsg
  /-- Handshake messages refused by a full early-arrival table and waiting to be resent (R200). -/
  refused : List (CollKey × ShSent)
  /-- Messages assembled and waiting for the Shuttle. -/
  rx : List ShMsg
  /-- Bobbins being assembled, by source module (R206). -/
  asm : List ShMsg
  nextId : Nat
  /-- The members named in the last 1,024 collectives of each context, newest first: rank + die × 2^14; the group (R218). -/
  named : Vector (List (Nat × Nat)) 4
  /-- Members marked SUSPECT, as context, group and member (R218). -/
  suspects : List (Nat × Nat × Nat)
  /-- Data bytes still to come, by source module, of a bobbin that is dropped because its role epoch is stale (R206, R268). -/
  strays : Sparse Nat
  ended : List ShEnded
  deriving DecidableEq, Repr

/-! ### Drover and vault (chapter 11) -/

/-- Snapshot states of R300, in code order. -/
inductive SnapSt where
  | free | frozen | held | buddied | committed | failed
  deriving DecidableEq, Repr

/-- The CONTROL class of a context (R293). -/
structure Control where
  seed : BitVec 64
  step : BitVec 64
  nextSeq : Nat
  block : Bytes
  regions : Bytes
  /-- Window objects .01 to .04, priority class, fold binding. -/
  settings : List Nat
  groups : List Group
  deriving DecidableEq, Repr

/-- A local slot (R295, R300): state, step, patches still uncopied (live patch number, patch number in the slot), the number
copied, and the CONTROL record of each context. -/
structure SnapSlot where
  st : SnapSt
  step : BitVec 64
  uncopied : List (Nat × Nat)
  copied : Nat
  control : Vector (Option Control) 4
  /-- Contexts whose images the slot holds. -/
  owners : List CtxId
  deriving DecidableEq, Repr

/-- A buddy slot: the step of the image it holds and the coordinates of its source (R301). -/
structure BuddySlot where
  step : BitVec 64
  coords : Coord
  deriving DecidableEq, Repr

/-- A buddy stream or a restore stream of a context: the slot, the next byte, the end of the image, and whether the header
area has been sent (R301, R308). -/
structure Stream where
  slot : Nat
  pos : Nat
  stop : Nat
  headerSent : Bool
  waiting : Bool
  deriving DecidableEq, Repr

/-- Rollback states of 0x2B1c.0C, in code order. -/
inductive RollSt where
  | none | running | done | failed
  deriving DecidableEq, Repr

/-- What the Drover holds for a context. -/
structure CkptCtx where
  /-- 0 NONE, 1 STREAMING, 2 CURRENT (R309). -/
  buddy : Nat
  stream : Option Stream
  roll : RollSt
  /-- The slot or holder a rollback runs from. -/
  rollSlot : Nat
  rollStep : BitVec 64
  adopt : Option Nat
  restore : Option Stream
  /-- The buddy copy was refused: the next snapshot waits for buddy_restream (R301). -/
  refused : Bool
  deriving DecidableEq, Repr

/-- A shard or parity share in the vault: the fields of its header (R306), its digest as programmed, and its data. -/
structure Shard where
  kind : Nat
  fold : Nat
  generation : BitVec 32
  tag : BitVec 32
  slice : BitVec 128
  rank : Nat
  step : BitVec 64
  members : Nat
  index : Nat
  pieceUnits : Nat
  digest : Bytes
  data : Bytes
  /-- By codeword, the block it was programmed into: its header's, then its data's (R313, log 24). -/
  blocks : List Nat := []
  deriving DecidableEq, Repr

/-- A generation of the catalog (R310): states 0 OPEN, 1 COMPLETE, 2 RETIRED. -/
structure Gen where
  fold : Nat
  generation : BitVec 32
  step : BitVec 64
  st : Nat
  /-- Closed on this member by its CONTROL shard (R304). -/
  closed : Bool
  /-- Tags this member has written. -/
  tags : List (BitVec 32)
  deriving DecidableEq, Repr

/-- A piece being taken in from a peer (R303). -/
structure Piece where
  sender : Nat
  hdr : Bytes
  data : Bytes
  complete : Bool
  /-- The buffer of the Drover's pool in which an open piece is combined (R303). -/
  buf : Option (PoolId × Nat)
  deriving DecidableEq, Repr

/-- A VAULT slot that has started. -/
structure VaultJob where
  c : CtxId
  slot : QSlot
  /-- Bytes of the shard, as read at its start. -/
  data : Bytes
  step : BitVec 64
  /-- The local slot it reads from, if it does (R296 step 1). -/
  reads : Option Nat
  /-- The piece being sent, and its next byte; the header went first (R303). -/
  piece : Nat
  pos : Nat
  headerSent : Bool
  outstanding : Nat
  failed : Option (BitVec 8 × BitVec 32)
  /-- READ: pieces fetched from the peers, by peer. -/
  fetched : List (Nat × Bytes)
  deriving DecidableEq, Repr

/-- A DRAM write held by copy-on-write (R299): what is written, the slot it belongs to, and what is sent once it is done. -/
structure HeldWrite where
  addr : Nat
  data : Bytes
  owner : Option (CtxId × Nat)
  reply : List Held
  out : List Out
  deriving DecidableEq, Repr

/-- The Drover and the vault. -/
structure Drover where
  slots : Vector SnapSlot 2
  buddies : Vector BuddySlot 2
  ctxs : Vector CkptCtx 4
  /-- slot_size in force, GiB (R295: a write takes effect at the next warm reset). -/
  slotGib : Nat
  heldWrites : List HeldWrite
  jobs : List VaultJob
  gens : List Gen
  shards : List Shard
  pieces : List Piece
  /-- 0 OK, 1 DEGRADED, 2 READ_ONLY, 3 FAILED, 0xFF not fitted (R314). -/
  vault : Nat
  freeKib : Nat
  dieFail : BitVec 80
  /-- Failed dies whose contents stand rebuilt in spare capacity. -/
  dieRebuilt : BitVec 80
  rebuildPermille : Nat
  /-- By block of the vault: erase count, read count, programme time; and the grown bad blocks (R314, R315). -/
  erases : Sparse Nat
  reads : Sparse Nat
  programmed : Sparse Nat
  badBlocks : List Nat
  /-- By block, how its codewords read, where they do not decode at once without an error (R313). -/
  marks : Sparse CodewordRead
  deriving DecidableEq, Repr

/-! ### Firmware banks and the update session (chapter 14) -/

/-- Bank states of 0x2F00.03, in code order. -/
inductive BankSt where
  | empty | invalid | valid | staged | trial | confirmed
  deriving DecidableEq, Repr

/-- A NOR bank: its bytes from offset 0 as programmed, its state, the image digest and security version of R368. -/
structure Bank where
  image : Bytes
  st : BankSt
  digest : Bytes
  version : Nat
  deriving DecidableEq, Repr

/-- Update session states of R375, in code order. -/
inductive FwSession where
  | idle | erasing | receiving | verifying | valid | staged
  deriving DecidableEq, Repr

/-- Firmware. -/
structure Fw where
  banks : Vector Bank 2
  running : Fin 2
  attempts : Nat
  flags : BitVec 8
  session : FwSession
  owner : Channel
  received : Nat
  status : Nat
  deriving DecidableEq, Repr

/-! ### The whole machine -/

/-- Everything but the command queue and the fuses. -/
structure Mach where
  grade : Grade
  /-- Nanoseconds from cold reset (00 Units). -/
  now : Nat
  /-- How many free values have been drawn: the argument of Config.freeByte (the model's own field, log 4). -/
  freeCtr : Nat
  /-- What the module has sent, newest first (the model's own record of its outputs, log 3). -/
  out : List Out
  /-- The rw dictionary objects, key index × 256 + sub-index; unlisted is the default. -/
  dict : Sparse Val
  islands : Vector Island 134
  netState : NetState
  counters : Vector Counter 256
  sensors : Vector Sensor 160
  log : Log
  mgmt : Mgmt
  pwr : Pwr
  mem : MemSys
  /-- Scratchpad by its 32-bit address (R76); unlisted is 0 (R82). -/
  spad : Sparse Byte
  /-- DRAM by its 44-bit address (R84); unlisted is undefined: Config.freeDram (R394). -/
  dram : Sparse Byte
  pools : Vector Pool 64
  ctxs : Vector Ctx 4
  mv : MoveEng
  arrays : List ArrayJob
  takeups : List TakeUp
  vecs : List VecJob
  audits : List AuditJob
  /-- The context whose ARRAY slot started last, for the turns of R23. -/
  lastLoom : CtxId
  /-- The active and the inactive stationary banks of the Loom (R50). -/
  active : Option Banks
  inactive : Option Banks
  /-- The context that had the sequencer's turn last (R131). -/
  lastDispatch : CtxId
  /-- The context whose VECTOR slot started last, for the turns of R132. -/
  lastVec : CtxId
  goose : Goose
  links : Vector Link 36
  net : Net
  host : HostPort
  shut : Shut
  drover : Drover
  fw : Fw
  deriving DecidableEq, Repr

/-- The machine: the queue of waiting commands (the row's cut), the fuses, and everything else. -/
structure State where
  pending : List Instr
  fuses : Fuses
  m : Mach
  deriving DecidableEq, Repr

/-! ### Stops -/

/-- Faults of the model. No command of the table ends in one: every command either has its effect or leaves the state as it
is (log 2). The one constructor is raised by nobody and is safe. -/
inductive Fault where
  /-- Raised by no command. Safe. -/
  | none
  deriving DecidableEq, Repr

/-- Refusals of the model. -/
inductive Refusal where
  /-- A command whose meaning is not written, by its mnemonic in the opcode table. Safe. -/
  | notModelled (mnemonic : String)
  deriving DecidableEq, Repr

/-! ### Reset -/

/-- An island held in reset with no request (R17, R21). -/
def Island.init (st : IslandState) : Island :=
  ⟨st, false, false, 0, 0, 0, 0, 0, false, false, false, false, 0, [], []⟩

/-- A counter as R362 gives it: source 0x0000 counts nothing, owner the operator. -/
def Counter.init : Counter := ⟨0, 0, 0xFF, 0, false, 0⟩

/-- A sensor not read yet: status 3 (R354). -/
def Sensor.init : Sensor := ⟨0, .absent, none, false⟩

/-- A QP in RESET, at the port rate of mode 0 (R281, R278). -/
def Qp.init : Qp := ⟨.reset, 0, 0, 1600000, [], 0, 0, none, none, 0⟩

/-- A memory window without a key (R287). -/
def Mw.init : Mw := ⟨none, 0, 0, 0, 0, 0⟩

/-- A context at power-up: DISABLED, last_committed_seq 0xFFFF (R146, R158). -/
def Ctx.init : Ctx :=
  { st := .disabled, cause := .none, expected := 0, cmdQ := [],
    queues := Vector.replicate 7 [], words := [], lastWord := none, nextUid := 0, faultEng := 7, pendingFault := none, heddle := [],
    lastCommitted := 0xFFFF, recordSeq := 0, recordQ := [], unacked := [], consumed := 0,
    faultRec := List.replicate 64 0, heddleDump := [], wordBytes := [], seed := 0, step := 0, stepHold := .none,
    windowPending := none, line := [], voided := [], qps := Vector.replicate 18 Qp.init, mws := Vector.replicate 16 Mw.init }

/-- A DRAM channel before training: state 0 ABSENT (R87). -/
def MemChan.init : MemChan := ⟨false, 0, 0, 0, 0, 0, 0, 0, []⟩

/-- An undefined pool (R107). -/
def Pool.init : Pool := ⟨0, 0, 0, 0, 0, [], [], [], [], [], 0⟩

/-- A link in state DISABLED at the base rate; the first flit of each direction has sequence 0 and the last acknowledged is
4,095 (R227, R231). -/
def Link.init : Link :=
  { st := .disabled, rate := 0, heldReason := 0, nbr := 0, level := 0, ident := [], frameCount := 0, targetRate := 0,
    stepSeen := Vector.replicate 4 0, stepSent := 0, stepReady := false, passed := 0, fallback := false, fromRetrain := false, fromLs := false,
    retrainHeld := false, eqQuiet := Vector.replicate 4 0, eqAsk := Vector.replicate 4 (3, 0), checkOwn := none, checkNbr := none,
    checkBad := 0, checkSer := 0, checkSymbols := 0, laneMap := [0, 1, 2, 3], inverted := 0, ffe := Vector.replicate 4 (0, 0), eqAns := Vector.replicate 4 0, eqStored := [],
    prbsErrors := Vector.replicate 4 0, prbsLocked := 0, prbsReg := Vector.replicate 4 [], injectBits := 0, txSeq := 0, lastAck := 0xFFF,
    replay := [], replays := 0, txNow := none, txRest := [],
    rxSeq := 0, rxWaiting := false, rxPart := none, rxScram := 0, rxFlits := [], sendNak := false, arrived := [],
    inBuf := [], txQ := [], sent := Vector.replicate 8 0, owed := Vector.replicate 8 0, uncredited := [],
    deficit := Vector.replicate 4 0, hiNext := Vector.replicate 4 false, mgtFlits := 0, mgtSince := 0, reqSent := false }

/-- A bundle before any plan is committed: UNUSED (R252). -/
def Bundle.init : Bundle :=
  ⟨0, 0, 0, 0, 0, 0, false, false, [], 0, .unused, [], Vector.replicate 8 0, Vector.replicate 8 0, []⟩

/-- A fold slot without a plan (R269). -/
def Fold.init : Fold := ⟨.unplanned, 0, [], 0, false, [], true, false, []⟩

/-- The grade of the modelled module: VLS-CK1-A (log 9). -/
def resetGrade : Grade := .a

/-- The strap word sampled at the modelled reset: node ID 1, links enabled at power-on, everything else 0 (log 10). -/
def resetStraps : BitVec 16 := 0x2001

/-- The Shuttle with no group and no collective (R394: group definitions are class V). -/
def Shut.init : Shut := ⟨[], [], [], [], [], [], 0, Vector.replicate 4 [], [], [], []⟩

/-- The Drover at first power-up: slots FREE, the vault empty and OK (R300, R314, R317). -/
def Drover.init : Drover :=
  { slots := Vector.replicate 2 ⟨.free, 0, [], 0, Vector.replicate 4 none, []⟩, buddies := Vector.replicate 2 ⟨0, 0⟩,
    ctxs := Vector.replicate 4 ⟨0, none, .none, 0, 0, none, none, false⟩, slotGib := 64, heldWrites := [], jobs := [], gens := [],
    shards := [], pieces := [], vault := 0, freeKib := 8192 * 2 ^ 20, dieFail := 0, dieRebuilt := 0, rebuildPermille := 0, erases := [],
    reads := [], programmed := [], badBlocks := [], marks := [] }

/-- Bank A as the factory wrote it, CONFIRMED; bank B empty (log 9). The digest is computed at each boot. -/
def Fw.init : Fw :=
  { banks := Vector.mk #[⟨Config.factoryImage, .confirmed, [], 0⟩, ⟨[], .empty, [], 0⟩] rfl, running := 0, attempts := 0,
    flags := 0, session := .idle, owner := .can, received := 0, status := 0 }

/-- The machine at the release of the management island at a cold reset (R396, row t0 + 26 ms): timestamp 0, straps
sampled, every island but the management island in RESET, state MGMT_ONLY, the boot ROM about to run. -/
def Mach.reset : Mach :=
  { grade := resetGrade, now := 0, freeCtr := 0, out := [], dict := [],
    islands := (Vector.replicate 134 (Island.init .reset)).set 133 (Island.init .run),
    netState := .run, counters := Vector.replicate 256 Counter.init, sensors := Vector.replicate 160 Sensor.init,
    log := ⟨[], [], [], 0, 0, []⟩,
    mgmt := { nmt := .initialisation, nodeId := 1, canRate := 0, usdo := .idle,
              chans := Vector.replicate 5 ⟨none, 0, 0, none, []⟩, emcyQ := [], history := [], errOwed := false,
              canPassive := false, busOffCount := 0, restarts := 0, store := none,
              copies := Vector.replicate 2 ⟨false, 0, []⟩, mgtRx := [], tpdoLast := Vector.replicate 4 [] },
    pwr := { modState := .mgmtOnly, transition := none, straps := resetStraps, boot := .rom, resetting := some .cold,
             mgmtResetting := false, resetDue := none, resetNLow := false, lastCause := 0,
             dpResetCount := 0, bootCount := 1, inputW := 0, energyMj := 0, capQuietMs := 0,
             coolTicks := Vector.replicate 5 0, tripCount := 0, inputFaults := 0, tripped := false, brownOut := false,
             moduleScopeFault := false },
    mem := { chans := Vector.replicate 24 MemChan.init, dramState := 0, rateMts := 0, badUnits := [], badWords := [],
             weakUnits := [], weakWords := [], spadCe := 0, spadUe := 0, spadPool := 64,
             patrol := Vector.replicate 24 0, dramEpochs := Vector.replicate 24 0, zeroed := [] },
    spad := [], dram := [], pools := Vector.replicate 64 Pool.init, ctxs := Vector.replicate 4 Ctx.init,
    mv := ⟨[], [], [], 0, 3⟩, arrays := [], takeups := [], vecs := [], audits := [], lastLoom := 3, active := none, inactive := none,
    lastDispatch := 3, lastVec := 3,
    goose := { cause := 0, tilesRun := 0, bands := Vector.replicate 4 none, rotating := false },
    links := Vector.replicate 36 Link.init,
    net := { own := 0, lo := 0, hi := 0, wrap := 0, bundles := Vector.replicate 16 Bundle.init,
             folds := Vector.replicate 4 Fold.init, routes := [], turns := [], bank := false, rebuilding := false,
             built := none, graph := [], graphNext := [], generation := 0, timedOut := false, linkMap := [],
             reports := [], toldDrained := false, served := [], inject := [], localRx := [], tokens := [], floods := 0, fencesSeen := [] },
    host := ⟨4, 0, 0, []⟩, shut := Shut.init, drover := Drover.init, fw := Fw.init }

/-- The fuses of a module fresh from the factory (log 9). -/
def Fuses.reset : Fuses := ⟨false, false, List.replicate 32 0, 0⟩

/-- The machine right after reset, with no command waiting. -/
def State.reset : State := ⟨[], Fuses.reset, Mach.reset⟩

end Sys2Proof.Machine
end

