-- ==== Sys2Proof/Machine/Bits.lean ====
section
/-! DEFINITION. Bit fields, byte order, serial numbers, checksums, and the sparse tables every memory and table of the machine
is built on. -/

namespace Sys2Proof.Machine

open Sys2Proof

/-! ### Sparse tables in canonical form -/

/-- What key `k` reads as in a table whose unlisted keys read as `d`. -/
def Sparse.get {V : Type} (d : V) (k : Nat) : Sparse V → V
  | [] => d
  | (j, v) :: rest => if j = k then v else Sparse.get d k rest

/-- The entry of key `k`, if it has one. -/
def Sparse.find {V : Type} (k : Nat) : Sparse V → Option V
  | [] => none
  | (j, v) :: rest => if j = k then some v else Sparse.find k rest

/-- Remove every entry of key `k`. -/
def Sparse.erase {V : Type} (k : Nat) (m : Sparse V) : Sparse V := m.filter fun e => e.1 ≠ k

/-- Put an entry in its place by key. -/
def Sparse.insert {V : Type} (k : Nat) (v : V) : Sparse V → Sparse V
  | [] => [(k, v)]
  | (j, w) :: rest => if k < j then (k, v) :: (j, w) :: rest else (j, w) :: Sparse.insert k v rest

/-- Write `v` at key `k`: an entry, unless `v` is what an unlisted key reads as. -/
def Sparse.set {V : Type} [DecidableEq V] (d : V) (k : Nat) (v : V) (m : Sparse V) : Sparse V :=
  if v = d then Sparse.erase k m else Sparse.insert k v (Sparse.erase k m)

/-- Write an entry even where no value is the default. -/
def Sparse.put {V : Type} (k : Nat) (v : V) (m : Sparse V) : Sparse V := Sparse.insert k v (Sparse.erase k m)

/-- Change the entry of key `k`. -/
def Sparse.modify {V : Type} [DecidableEq V] (d : V) (k : Nat) (f : V → V) (m : Sparse V) : Sparse V :=
  Sparse.set d k (f (Sparse.get d k m)) m

/-- The canonical form: keys strictly rising. -/
def Sparse.sorted {V : Type} : Sparse V → Bool
  | [] => true
  | [_] => true
  | (j, _) :: (k, w) :: rest => decide (j < k) && Sparse.sorted ((k, w) :: rest)

/-- Memory.wf: keys strictly rising and no entry equal to what an unlisted address reads as (`none`: no fixed byte). -/
def Memory.wf (d : Nat → Option Byte) (m : Sparse Byte) : Bool :=
  Sparse.sorted m && m.all fun e => decide (some e.2 ≠ d e.1)

/-- Write one byte of a memory whose unlisted addresses read as `d` says. -/
def Memory.write (d : Nat → Option Byte) (a : Nat) (v : Byte) (m : Sparse Byte) : Sparse Byte :=
  if some v = d a then Sparse.erase a m else Sparse.put a v m

/-- Write bytes at rising addresses. -/
def Memory.writeAll (d : Nat → Option Byte) : Nat → Bytes → Sparse Byte → Sparse Byte
  | _, [], m => m
  | a, b :: rest, m => Memory.writeAll d (a + 1) rest (Memory.write d a b m)

/-! ### Numbers and bytes -/

/-- Bits [hi:lo] of a number. -/
def bits (n hi lo : Nat) : Nat := (n / 2 ^ lo) % 2 ^ (hi + 1 - lo)

/-- Bit i of a number. -/
def bit (n i : Nat) : Bool := (n / 2 ^ i) % 2 = 1

/-- A number placed at bit lo, cut to its width. -/
def place (n hi lo : Nat) : Nat := (n % 2 ^ (hi + 1 - lo)) * 2 ^ lo

/-- Two's complement value of a w-bit number. -/
def signed (w n : Nat) : Int := if n % 2 ^ w < 2 ^ (w - 1) then (n % 2 ^ w : Nat) else (n % 2 ^ w : Nat) - (2 ^ w : Nat)

/-- The number whose little-endian bytes these are (R7). -/
def leNat : Bytes → Nat
  | [] => 0
  | b :: rest => b.toNat + 256 * leNat rest

/-- The k little-endian bytes of a number (R7). -/
def natLe : Nat → Nat → Bytes
  | 0, _ => []
  | k + 1, n => BitVec.ofNat 8 n :: natLe k (n / 256)

/-- k bytes from offset o. -/
def slice (o k : Nat) (b : Bytes) : Bytes := (b.drop o).take k

/-- Little-endian number of k bytes at offset o. -/
def getLe (b : Bytes) (o k : Nat) : Nat := leNat (slice o k b)

/-- Serial comparison of R8: `a` lies before `b` within the window. -/
def seqBefore {n : Nat} (w : Nat) (a b : BitVec n) : Bool :=
  let d := (b - a).toNat
  decide (d ≠ 0) && decide (d ≤ w)

/-- Round up to a multiple. -/
def roundUp (n k : Nat) : Nat := (n + k - 1) / k * k

/-- Ceiling division. -/
def cdiv (n k : Nat) : Nat := (n + k - 1) / k

/-- Update entry i of a vector. -/
def Vec.upd {α : Type} {n : Nat} (v : Vector α n) (i : Fin n) (f : α → α) : Vector α n := v.set i (f v[i])

end Sys2Proof.Machine
end

