-- ==== Sys2Proof/Machine/Crc.lean ====
section
/-! DEFINITION. The checksums of the manual: CRC-32 of IEEE 802.3 (R245, R363), the CRC-16 of R223, SHA3-256 of FIPS 202
(R332), and the Tally modulo 2^61 − 1. -/

namespace Sys2Proof.Machine

open Sys2Proof

/-- One step of the reflected CRC-32, polynomial 0xEDB88320. -/
def crc32Bit (c : BitVec 32) : BitVec 32 := if c.getLsbD 0 then (c >>> 1) ^^^ 0xEDB88320 else c >>> 1

/-- One byte of the CRC-32. -/
def crc32Byte (c : BitVec 32) (b : Byte) : BitVec 32 :=
  let c := c ^^^ b.setWidth 32
  crc32Bit (crc32Bit (crc32Bit (crc32Bit (crc32Bit (crc32Bit (crc32Bit (crc32Bit c)))))))

/-- CRC-32 with the IEEE 802.3 polynomial over a byte string (R245). -/
def crc32 (b : Bytes) : BitVec 32 := ~~~ (b.foldl crc32Byte 0xFFFFFFFF)

/-- One bit of the CRC-16 of R223: x^16 + x^12 + x^5 + 1, most significant bit first. -/
def crc16Bit (c : BitVec 16) (b : Bool) : BitVec 16 :=
  if (c.getLsbD 15) != b then (c <<< 1) ^^^ 0x1021 else c <<< 1

/-- CRC-16 of R223 over a bit string in sending order: initial value 0xFFFF, no final inversion. -/
def crc16 (bs : List Bool) : BitVec 16 := bs.foldl crc16Bit 0xFFFF

/-- The low n bits of a number, bit 0 first. -/
def natBits : Nat → Nat → List Bool
  | 0, _ => []
  | k + 1, n => decide (n % 2 = 1) :: natBits k (n / 2)

/-- The number whose bits, bit 0 first, these are. -/
def bitsNat : List Bool → Nat
  | [] => 0
  | b :: rest => (if b then 1 else 0) + 2 * bitsNat rest

/-! ### SHA3-256 (FIPS 202) -/

/-- Lane l of the state of Keccak-f[1600], lanes numbered x + 5y. -/
def lane (a : List (BitVec 64)) (l : Nat) : BitVec 64 := a.getD l 0

/-- A step of the register that the round constants come from: x^8 + x^6 + x^5 + x^4 + 1. -/
def rcStep (r : Nat) : Nat := if r < 128 then 2 * r else 2 * r ^^^ 0x171

/-- The constant that a round adds to lane 0, from the register as it stands: its next seven outputs at bits 2^j − 1; and the
register after them. -/
def rcNext (r : Nat) : BitVec 64 × Nat :=
  (List.range 7).foldl (fun p j => (p.1 ||| BitVec.ofNat 64 (p.2 % 2 * 2 ^ (2 ^ j - 1)), rcStep p.2)) (0, r)

/-- θ: every lane takes in the parity of the column before it and, turned by one, of the column after it. -/
def theta (a : List (BitVec 64)) : List (BitVec 64) :=
  let par := fun (x : Nat) => (List.range 5).foldl (fun v y => v ^^^ lane a (x % 5 + 5 * y)) 0
  let mix := (List.range 5).map fun x => par (x + 4) ^^^ (par (x + 1)).rotateLeft 1
  (List.range 25).map fun l => lane a l ^^^ lane mix (l % 5)

/-- Where π moves a lane. -/
def piLane (l : Nat) : Nat := l / 5 + 5 * ((2 * (l % 5) + 3 * (l / 5)) % 5)

/-- ρ and π along the one cycle that π makes of lanes 1 to 24: the lane at place t, turned by the t + 1st triangular number, moves
to the next place. Lane 0 stays. -/
def rhoPi (a : List (BitVec 64)) : List (BitVec 64) :=
  ((List.range 24).foldl (fun p t =>
    (piLane p.1, p.2.set (piLane p.1) ((lane a p.1).rotateLeft ((t + 1) * (t + 2) / 2 % 64)))) (1, a)).2

/-- χ: within a plane, a lane is flipped where the next one is clear and the one after set. -/
def chi (a : List (BitVec 64)) : List (BitVec 64) :=
  (List.range 25).map fun l =>
    let along := fun (k : Nat) => lane a ((l % 5 + k) % 5 + l / 5 * 5)
    lane a l ^^^ (along 2 &&& ~~~ along 1)

/-- Keccak-f[1600]: 24 rounds of θ, ρ, π, χ and the round constant. -/
def keccakF (a : List (BitVec 64)) : List (BitVec 64) :=
  ((List.range 24).foldl (fun (p : List (BitVec 64) × Nat) _ =>
    let b := chi (rhoPi (theta p.1))
    let k := rcNext p.2
    (b.set 0 (lane b 0 ^^^ k.1), k.2)) (a, 1)).1

/-- Absorb one block of 136 bytes. -/
def sha3Absorb (a : List (BitVec 64)) (blk : Bytes) : List (BitVec 64) :=
  keccakF ((List.range 25).map fun i =>
    if i < 17 then lane a i ^^^ BitVec.ofNat 64 (getLe blk (8 * i) 8) else lane a i)

/-- Absorb n blocks. -/
def sha3Blocks : Nat → List (BitVec 64) → Bytes → List (BitVec 64)
  | 0, a, _ => a
  | n + 1, a, b => sha3Blocks n (sha3Absorb a (b.take 136)) (b.drop 136)

/-- The padding of SHA3-256: 0x06, zeros, and 0x80 in the last byte of the rate. -/
def sha3Pad (b : Bytes) : Bytes :=
  let r := 136 - b.length % 136
  b ++ (if r = 1 then [0x86] else (0x06 : Byte) :: (List.replicate (r - 2) 0 ++ [0x80]))

/-- SHA3-256 of a byte string (FIPS 202). -/
def sha3 (b : Bytes) : Bytes :=
  let p := sha3Pad b
  let a := sha3Blocks (p.length / 136) (List.replicate 25 0) p
  (a.take 4).flatMap fun w => natLe 8 w.toNat

end Sys2Proof.Machine
end

