-- ==== Sys2Proof/Machine/Heddle.lean ====
section
/-! DEFINITION. The Heddle (R119, R133 to R140): engines, the control word, token counts, the start conditions of a slot, and the
order in which slots become ready (R132). -/

namespace Sys2Proof.Machine

open Sys2Proof

/-! ### Engines (R119) -/

/-- Engine number. -/
def Eng.num : Eng → Fin 7
  | .move => 0 | .array => 1 | .vector => 2 | .shuttle => 3 | .vault => 4 | .audit => 5 | .conf => 6

/-- Engine of a number. -/
def engOf (n : Nat) : Option Eng := [Eng.move, .array, .vector, .shuttle, .vault, .audit, .conf][n]?

/-- All engines, in number order. -/
def allEng : List Eng := [.move, .array, .vector, .shuttle, .vault, .audit, .conf]

/-- The engine whose Heddle table holds the tokens an engine waits for: CONF uses the SHUTTLE table (R119). -/
def Eng.table : Eng → Nat
  | .conf => 3
  | e => e.num.val

/-! ### The control word (R119) -/

/-- The control word of a slot. -/
def ctlOf (b : Bytes) : Nat := getLe b 0 8

/-- emit_targets of a control word. -/
def emitTargets (ctl : Nat) : Nat := bits ctl 63 57

/-- emit_id of a control word. -/
def emitId (ctl : Nat) : Nat := bits ctl 56 45

/-- The token IDs a control word's enabled waits name. -/
def waitIds (ctl : Nat) : List Nat :=
  (if bit ctl 31 then [bits ctl 30 19] else []) ++ (if bit ctl 44 then [bits ctl 43 32] else [])

/-! ### Tokens (R133 to R135, R139) -/

/-- Token count of an engine table and ID. -/
def Ctx.tokens (x : Ctx) (e id : Nat) : Nat := Sparse.get 0 (e * 4096 + id) x.heddle

/-- Set a token count. -/
def Ctx.setTokens (x : Ctx) (e id n : Nat) : Ctx := { x with heddle := Sparse.set 0 (e * 4096 + id) n x.heddle }

/-- Do the waits on table e hold: each named count at least the number of waits that name it (R134)? -/
def Ctx.waitsHold (x : Ctx) (ws : List (Nat × Nat)) : Bool :=
  ws.all fun w => decide (ws.count w ≤ x.tokens w.1 w.2)

/-- Consume one token for each wait, in one indivisible step (R134). -/
def Ctx.consume (x : Ctx) (ws : List (Nat × Nat)) : Ctx :=
  ws.foldl (fun y w => y.setTokens w.1 w.2 (y.tokens w.1 w.2 - 1)) x

/-- The engine tables that a target mask names: bits 0 to 5 (bit 6 is HOST). -/
def targetTables (mask : Nat) : List Nat := (List.range 6).filter fun e => bit mask e

/-- The lowest target whose count would pass 65,535 (R139). -/
def Ctx.overflows (x : Ctx) (mask id : Nat) (n : Nat := 1) : Option Nat :=
  (targetTables mask).find? fun e => decide (65535 < x.tokens e id + n)

/-- Apply a token to every target. -/
def Ctx.emit (x : Ctx) (mask id : Nat) (n : Nat := 1) : Ctx :=
  (targetTables mask).foldl (fun y e => y.setTokens e id (y.tokens e id + n)) x

/-! ### Start conditions (R134, R140) -/

/-- Does the FENCE condition of a word hold: every earlier word of the context has completed (R140)? -/
def Ctx.fenceHolds (x : Ctx) (uid : Nat) : Bool :=
  (x.words.all fun w => !(decide (w.uid = uid) && (w.fence || w.stepBoundary))) ||
    x.words.all fun w => decide (uid ≤ w.uid) || w.completed

/-- The head slot of an engine queue, if R134 lets it start: context ENABLED, FENCE, waits. While a window of the context is
being zeroed no slot starts, so that none meets a half-changed window (R82, R88). -/
def Ctx.readyHead (x : Ctx) (e : Eng) : Option QSlot :=
  match x.queues[e.num] with
  | [] => none
  | s :: _ =>
    if x.st = .enabled ∧ x.windowPending.isNone ∧ x.fenceHolds s.uid ∧ x.waitsHold ((waitIds (ctlOf s.bytes)).map fun t => (e.table, t))
    then some s else none

/-! ### Readiness order (R132) -/

/-- The engines that serve equal classes in readiness order and hold no order of their own. -/
def lineEngines : List Eng := [.vault, .conf]

/-- The place of the slot of engine e and word uid in the line, 0 for none. -/
def Ctx.placeOf (x : Ctx) (e : Eng) (uid : Nat) : Nat :=
  match x.line.find? fun l => decide (l.1 = e ∧ l.2.1 = uid) with
  | some l => l.2.2
  | none => 0

/-- The line as a context stands: a head slot that was ready keeps its number, one that has become ready takes the next. -/
def Ctx.noted (x : Ctx) (next : Nat) : Ctx :=
  { x with line := lineEngines.filterMap fun e => (x.readyHead e).map fun q =>
      (e, q.uid, if x.placeOf e q.uid = 0 then next else x.placeOf e q.uid) }

/-- The number that a slot becoming ready now takes. -/
def Mach.nextInLine (m : Mach) : Nat :=
  1 + (m.ctxs.toList.flatMap fun x => x.line.map fun l => l.2.2).foldl max 0

end Sys2Proof.Machine
end

