-- ==== Sys2Proof/Machine/Objects.lean ====
section
/-! DEFINITION. The object dictionary's table (R350, R351 and the object tables of every chapter): for each object its type,
access, retention class, owner set and default. -/

namespace Sys2Proof.Machine

open Sys2Proof

/-- CANopen types of the objects; a DOMAIN carries its greatest length. -/
inductive Ty where
  | bool | u8 | u16 | u32 | u48 | u64 | i32
  | domain (max : Nat)
  | text
  deriving DecidableEq, Repr

/-- Access of an object. -/
inductive Acc where
  | const | ro | rw | wo
  deriving DecidableEq, Repr

/-- Retention class of an object (00 Conventions, R394). -/
inductive Kept where
  | p | w | d | v
  deriving DecidableEq, Repr

/-- Owner sets of R346; `ctx` is CONTEXT(c), with c found from the index. -/
inductive Own where
  | const | op | pub | ctx
  deriving DecidableEq, Repr

/-- A row of the dictionary: `n` indices from `idx`, `k` sub-indices from `sub`; `tw`: a tenant may write it. -/
structure ObjRow where
  idx : Nat
  n : Nat
  sub : Nat
  k : Nat
  ty : Ty
  acc : Acc
  kept : Kept
  own : Own
  tw : Bool
  dflt : Nat
  deriving DecidableEq, Repr

/-- Standard communication objects (R351). -/
def objs1000 : List ObjRow :=
  [⟨0x1000, 1, 0, 1, .u32, .const, .p, .pub, false, 0⟩,
   ⟨0x1001, 1, 0, 1, .u8, .ro, .v, .pub, false, 0⟩,
   ⟨0x1003, 1, 0, 1, .u8, .rw, .w, .pub, false, 0⟩,
   ⟨0x1003, 1, 1, 16, .u32, .ro, .w, .pub, false, 0⟩,
   ⟨0x1010, 1, 1, 1, .u32, .rw, .p, .op, false, 1⟩,
   ⟨0x1011, 1, 1, 1, .u32, .rw, .p, .op, false, 1⟩,
   ⟨0x1012, 1, 0, 1, .u32, .rw, .p, .op, false, 0x80000100⟩,
   ⟨0x1014, 1, 0, 1, .u32, .ro, .v, .op, false, 0x080⟩,
   ⟨0x1015, 1, 0, 1, .u16, .rw, .p, .op, false, 100⟩,
   ⟨0x1017, 1, 0, 1, .u16, .rw, .p, .op, false, 500⟩,
   ⟨0x1018, 1, 1, 2, .u32, .const, .p, .pub, false, 0⟩,
   ⟨0x1018, 1, 3, 1, .u32, .ro, .v, .pub, false, 0⟩,
   ⟨0x1018, 1, 4, 1, .u32, .const, .p, .pub, false, 0⟩,
   ⟨0x1800, 4, 1, 1, .u32, .rw, .p, .op, false, 0⟩,
   ⟨0x1800, 4, 2, 1, .u8, .rw, .p, .op, false, 0xFE⟩,
   ⟨0x1800, 4, 3, 1, .u16, .rw, .p, .op, false, 0⟩,
   ⟨0x1800, 4, 5, 1, .u16, .rw, .p, .op, false, 0⟩,
   ⟨0x1A00, 4, 0, 1, .u8, .rw, .p, .pub, false, 0⟩,
   ⟨0x1A00, 4, 1, 64, .u32, .rw, .p, .pub, false, 0⟩]

/-- Straps (R393), resets and states (R390), identity (R4, R352), power and thermal (R411), sensors (R354), islands (R21). -/
def objs2000 : List ObjRow :=
  [⟨0x2000, 1, 1, 1, .u16, .ro, .v, .pub, false, 0⟩,
   ⟨0x2000, 1, 2, 1, .u16, .rw, .p, .op, false, 0⟩,
   ⟨0x2000, 1, 3, 1, .u8, .rw, .p, .op, false, 0⟩,
   ⟨0x2000, 1, 4, 1, .u8, .rw, .p, .op, false, 1⟩,
   ⟨0x2000, 1, 5, 2, .u8, .ro, .v, .op, false, 0⟩,
   ⟨0x2010, 1, 1, 1, .u32, .wo, .v, .op, false, 0⟩,
   ⟨0x2010, 1, 2, 2, .u8, .ro, .v, .pub, false, 0⟩,
   ⟨0x2010, 1, 4, 1, .u8, .wo, .v, .op, false, 0⟩,
   ⟨0x2010, 1, 5, 1, .bool, .ro, .v, .op, false, 0⟩,
   ⟨0x2010, 1, 6, 1, .u16, .rw, .p, .op, false, 50⟩,
   ⟨0x2010, 1, 7, 1, .u32, .ro, .p, .op, false, 0⟩,
   ⟨0x2100, 1, 1, 1, .text, .const, .p, .pub, false, 0⟩,
   ⟨0x2100, 1, 2, 1, .u8, .const, .p, .pub, false, 0⟩,
   ⟨0x2100, 1, 3, 1, .text, .const, .p, .pub, false, 0⟩,
   ⟨0x2100, 1, 4, 1, .u16, .const, .p, .pub, false, 0⟩,
   ⟨0x2100, 1, 5, 1, .bool, .const, .p, .pub, false, 0⟩,
   ⟨0x2100, 1, 6, 1, .u64, .const, .p, .pub, false, 0⟩,
   ⟨0x2100, 1, 7, 1, .u16, .const, .p, .pub, false, 0⟩,
   ⟨0x2100, 1, 8, 1, .domain 32, .ro, .p, .pub, false, 0⟩,
   ⟨0x2100, 1, 9, 2, .domain 36, .ro, .p, .pub, false, 0⟩,
   ⟨0x2200, 1, 1, 1, .u16, .ro, .v, .pub, false, 0⟩,
   ⟨0x2200, 1, 2, 1, .u64, .ro, .v, .pub, false, 0⟩,
   ⟨0x2200, 1, 3, 1, .u16, .rw, .p, .pub, false, 0⟩,
   ⟨0x2200, 1, 4, 1, .bool, .ro, .v, .pub, false, 0⟩,
   ⟨0x2200, 1, 5, 1, .domain 5, .ro, .v, .pub, false, 0⟩,
   ⟨0x2200, 1, 6, 3, .i32, .const, .p, .pub, false, 0⟩,
   ⟨0x2200, 1, 9, 2, .u32, .ro, .p, .pub, false, 0⟩,
   ⟨0x2200, 1, 11, 1, .domain 256, .ro, .v, .pub, false, 0⟩,
   ⟨0x2300, 1, 1, 1, .u8, .const, .p, .pub, false, 160⟩,
   ⟨0x2301, 1, 1, 160, .i32, .ro, .v, .pub, false, 0⟩,
   ⟨0x2302, 1, 1, 160, .u8, .ro, .v, .pub, false, 3⟩,
   ⟨0x2303, 1, 1, 160, .i32, .ro, .w, .pub, false, 0⟩,
   ⟨0x2303, 1, 161, 1, .bool, .wo, .v, .op, false, 0⟩,
   ⟨0x2304, 1, 1, 5, .i32, .ro, .v, .pub, false, 0⟩,
   ⟨0x2305, 1, 0, 1, .domain 640, .ro, .v, .pub, false, 0⟩,
   ⟨0x2400, 1, 1, 1, .u8, .const, .p, .pub, false, 134⟩,
   ⟨0x2400, 1, 2, 1, .u32, .rw, .p, .pub, false, 1000⟩,
   ⟨0x2401, 1, 1, 134, .u8, .ro, .v, .pub, false, 0⟩,
   ⟨0x2402, 1, 1, 134, .u16, .ro, .v, .pub, false, 0⟩,
   ⟨0x2403, 1, 1, 134, .u8, .rw, .w, .pub, false, 0⟩,
   ⟨0x2404, 1, 1, 134, .u8, .ro, .v, .pub, false, 0⟩,
   ⟨0x2405, 1, 1, 134, .u8, .ro, .v, .pub, false, 0⟩]

/-- Plan, routing, fold slots (R271, R272, R340), bundles (R273), links (R240, R241). -/
def objs2500 : List ObjRow :=
  [⟨0x2500, 1, 1, 3, .u32, .rw, .p, .op, false, 0⟩,
   ⟨0x2500, 1, 4, 1, .u8, .rw, .p, .op, false, 0⟩,
   ⟨0x2500, 1, 5, 1, .bool, .wo, .v, .op, false, 0⟩,
   ⟨0x2500, 1, 6, 1, .u8, .ro, .v, .op, false, 0⟩,
   ⟨0x2500, 1, 7, 1, .u32, .ro, .v, .op, false, 0⟩,
   ⟨0x2500, 1, 8, 1, .u32, .rw, .p, .op, false, 500⟩,
   ⟨0x2500, 1, 9, 1, .u32, .rw, .p, .op, false, 20⟩,
   ⟨0x2500, 1, 10, 1, .u32, .rw, .p, .op, false, 0x01030308⟩,
   ⟨0x2500, 1, 11, 1, .u8, .rw, .p, .op, false, 10⟩,
   ⟨0x2500, 1, 12, 1, .u32, .rw, .p, .op, false, 10000⟩,
   ⟨0x2501, 4, 1, 1, .u16, .rw, .p, .ctx, false, 0⟩,
   ⟨0x2501, 4, 2, 2, .u32, .rw, .p, .ctx, false, 0⟩,
   ⟨0x2501, 4, 4, 1, .u16, .rw, .p, .ctx, false, 0⟩,
   ⟨0x2501, 4, 5, 1, .domain 131072, .rw, .p, .ctx, false, 0⟩,
   ⟨0x2501, 4, 6, 1, .u32, .wo, .v, .ctx, false, 0⟩,
   ⟨0x2501, 4, 7, 1, .u32, .ro, .p, .ctx, false, 0⟩,
   ⟨0x2501, 4, 8, 1, .u8, .ro, .v, .ctx, false, 0⟩,
   ⟨0x2501, 4, 9, 1, .u32, .ro, .v, .ctx, false, 0⟩,
   ⟨0x2501, 4, 10, 1, .u32, .wo, .v, .ctx, false, 0⟩,
   ⟨0x2501, 4, 11, 1, .u8, .rw, .p, .ctx, false, 1⟩,
   ⟨0x2501, 4, 12, 1, .u16, .rw, .p, .ctx, false, 8⟩,
   ⟨0x2501, 4, 13, 1, .u16, .rw, .p, .ctx, false, 65535⟩,
   ⟨0x2501, 4, 14, 1, .bool, .rw, .p, .ctx, false, 0⟩,
   ⟨0x2501, 4, 15, 1, .domain 65536, .ro, .p, .ctx, false, 0⟩,
   ⟨0x2501, 4, 16, 1, .bool, .wo, .v, .ctx, false, 0⟩,
   ⟨0x2501, 4, 17, 1, .bool, .rw, .p, .ctx, false, 1⟩,
   ⟨0x2501, 4, 18, 1, .u8, .ro, .w, .ctx, false, 0⟩,
   ⟨0x2508, 1, 0, 1, .domain 1572864, .ro, .v, .op, false, 0⟩,
   ⟨0x2509, 1, 0, 1, .domain 612, .ro, .v, .op, false, 0⟩,
   ⟨0x2510, 1, 1, 4, .u8, .rw, .p, .ctx, false, 0xFF⟩,
   ⟨0x2600, 36, 1, 1, .u8, .ro, .v, .pub, false, 0⟩,
   ⟨0x2600, 36, 2, 1, .bool, .rw, .p, .pub, false, 0⟩,
   ⟨0x2600, 36, 3, 1, .u8, .rw, .p, .pub, false, 3⟩,
   ⟨0x2600, 36, 4, 2, .u8, .ro, .v, .pub, false, 0⟩,
   ⟨0x2600, 36, 6, 1, .u64, .ro, .v, .pub, false, 0⟩,
   ⟨0x2600, 36, 7, 2, .u8, .ro, .v, .pub, false, 0⟩,
   ⟨0x2600, 36, 9, 1, .u32, .ro, .v, .pub, false, 0⟩,
   ⟨0x2600, 36, 10, 2, .u8, .ro, .v, .pub, false, 0⟩,
   ⟨0x2600, 36, 12, 1, .u16, .ro, .v, .pub, false, 0⟩,
   ⟨0x2600, 36, 13, 1, .u8, .ro, .v, .pub, false, 0⟩,
   ⟨0x2600, 36, 16, 1, .u8, .rw, .p, .pub, false, 0⟩,
   ⟨0x2600, 36, 17, 1, .u8, .rw, .p, .pub, false, 1⟩,
   ⟨0x2600, 36, 18, 1, .bool, .rw, .p, .pub, false, 1⟩,
   ⟨0x2600, 36, 19, 1, .domain 4096, .ro, .p, .pub, false, 0⟩,
   ⟨0x2600, 36, 24, 1, .u8, .rw, .v, .pub, false, 0⟩,
   ⟨0x2600, 36, 25, 1, .u32, .rw, .v, .pub, false, 0⟩,
   ⟨0x2600, 36, 26, 4, .u32, .ro, .v, .pub, false, 0⟩,
   ⟨0x2600, 36, 30, 1, .u8, .ro, .v, .pub, false, 0⟩,
   ⟨0x2600, 36, 32, 1, .u32, .rw, .p, .pub, false, 2000⟩,
   ⟨0x2600, 36, 33, 1, .u8, .rw, .v, .pub, false, 0⟩,
   ⟨0x2600, 36, 34, 1, .bool, .wo, .v, .pub, false, 0⟩,
   ⟨0x2630, 1, 1, 1, .u8, .const, .p, .const, false, 1⟩,
   ⟨0x2630, 1, 2, 1, .u16, .rw, .p, .op, false, 50⟩,
   ⟨0x2630, 1, 3, 1, .u32, .rw, .p, .op, false, 1000⟩,
   ⟨0x2630, 1, 4, 1, .u32, .rw, .p, .op, false, 100000⟩,
   ⟨0x2630, 1, 5, 1, .u32, .rw, .p, .op, false, 2000⟩,
   ⟨0x2630, 1, 6, 1, .u8, .rw, .p, .op, false, 16⟩,
   ⟨0x2630, 1, 7, 1, .u32, .rw, .p, .op, false, 5000⟩,
   ⟨0x2630, 1, 8, 1, .u16, .rw, .p, .op, false, 10⟩,
   ⟨0x2630, 1, 9, 1, .u32, .rw, .p, .op, false, 1000⟩,
   ⟨0x2640, 16, 1, 3, .u8, .rw, .p, .op, false, 0⟩,
   ⟨0x2640, 16, 4, 1, .u64, .rw, .p, .op, false, 0⟩,
   ⟨0x2640, 16, 5, 1, .u8, .rw, .p, .op, false, 4⟩,
   ⟨0x2640, 16, 6, 1, .u32, .rw, .p, .op, false, 0⟩,
   ⟨0x2640, 16, 7, 2, .bool, .rw, .p, .op, false, 0⟩,
   ⟨0x2640, 16, 9, 1, .u64, .rw, .p, .op, false, 0⟩,
   ⟨0x2640, 16, 10, 1, .bool, .rw, .w, .op, false, 0⟩,
   ⟨0x2640, 16, 11, 1, .u16, .rw, .p, .op, false, 0⟩,
   ⟨0x2640, 16, 12, 1, .u16, .rw, .p, .op, false, 256⟩,
   ⟨0x2640, 16, 16, 1, .u8, .ro, .v, .op, false, 0⟩,
   ⟨0x2640, 16, 17, 1, .u64, .ro, .v, .op, false, 0⟩]

/-- Host port, queue pairs, memory windows (R292). -/
def objs2700 : List ObjRow :=
  [⟨0x2700, 1, 1, 1, .u8, .rw, .p, .op, false, 0⟩,
   ⟨0x2700, 1, 2, 1, .u8, .ro, .v, .op, false, 4⟩,
   ⟨0x2700, 1, 3, 1, .bool, .rw, .p, .op, false, 1⟩,
   ⟨0x2700, 1, 4, 1, .u32, .rw, .p, .op, false, 3000⟩,
   ⟨0x2700, 1, 5, 1, .u64, .const, .p, .const, false, 0⟩,
   ⟨0x2700, 1, 6, 1, .domain 16, .rw, .p, .op, false, 0⟩,
   ⟨0x2700, 1, 7, 1, .u32, .rw, .p, .op, false, 0⟩,
   ⟨0x2700, 1, 8, 1, .u16, .rw, .p, .op, false, 0⟩,
   ⟨0x2700, 1, 9, 1, .u16, .rw, .p, .op, false, 9216⟩,
   ⟨0x2700, 1, 10, 1, .u8, .rw, .p, .op, false, 3⟩,
   ⟨0x2700, 1, 11, 1, .u8, .rw, .p, .op, false, 6⟩,
   ⟨0x2700, 1, 12, 1, .u8, .rw, .p, .op, false, 26⟩,
   ⟨0x2700, 1, 13, 1, .u8, .rw, .p, .op, false, 48⟩,
   ⟨0x2700, 1, 14, 1, .u16, .rw, .p, .op, false, 50⟩,
   ⟨0x2700, 1, 15, 1, .u16, .rw, .p, .op, false, 100⟩,
   ⟨0x2700, 1, 16, 1, .u32, .rw, .p, .op, false, 100⟩,
   ⟨0x2700, 1, 17, 1, .u8, .rw, .p, .op, false, 0⟩,
   ⟨0x2720, 128, 1, 1, .u8, .ro, .v, .ctx, false, 0⟩,
   ⟨0x2720, 128, 2, 1, .u32, .rw, .w, .ctx, true, 0⟩,
   ⟨0x2720, 128, 3, 1, .domain 16, .rw, .w, .ctx, true, 0⟩,
   ⟨0x2720, 128, 4, 1, .u64, .rw, .w, .ctx, true, 0⟩,
   ⟨0x2720, 128, 5, 2, .u32, .rw, .v, .ctx, true, 0⟩,
   ⟨0x2720, 128, 7, 1, .u16, .rw, .w, .ctx, true, 4096⟩,
   ⟨0x2720, 128, 8, 1, .u8, .rw, .w, .ctx, true, 12⟩,
   ⟨0x2720, 128, 9, 2, .u8, .rw, .w, .ctx, true, 7⟩,
   ⟨0x2720, 128, 11, 1, .u8, .rw, .w, .ctx, true, 0x0A⟩,
   ⟨0x2720, 128, 12, 2, .u8, .rw, .w, .ctx, true, 16⟩,
   ⟨0x2720, 128, 14, 2, .bool, .wo, .v, .ctx, true, 0⟩,
   ⟨0x2720, 128, 16, 1, .u64, .rw, .w, .ctx, true, 0⟩,
   ⟨0x2720, 128, 17, 2, .u32, .rw, .w, .ctx, true, 0⟩,
   ⟨0x2720, 128, 19, 1, .u32, .ro, .v, .ctx, false, 0⟩,
   ⟨0x27A0, 64, 1, 1, .u8, .rw, .v, .ctx, true, 0⟩,
   ⟨0x27A0, 64, 2, 2, .u64, .rw, .v, .ctx, true, 0⟩,
   ⟨0x27A0, 64, 4, 1, .u8, .rw, .v, .ctx, true, 0⟩,
   ⟨0x27A0, 64, 5, 1, .bool, .wo, .v, .ctx, true, 0⟩,
   ⟨0x27A0, 64, 6, 1, .u32, .ro, .v, .ctx, false, 0⟩,
   ⟨0x27A0, 64, 7, 1, .bool, .wo, .v, .ctx, true, 0⟩]

/-- The objects of one context, by offset k from 0x2800 + 0x10·c (R158, R87). -/
def objsCtx (c : Nat) : List ObjRow :=
  let b := 0x2800 + 0x10 * c
  [⟨b, 1, 1, 1, .u8, .ro, .v, .ctx, false, 0⟩,
   ⟨b, 1, 2, 1, .bool, .rw, .p, .ctx, false, if c = 0 then 1 else 0⟩,
   ⟨b, 1, 3, 1, .u16, .ro, .v, .ctx, false, 0xFFFF⟩,
   ⟨b, 1, 4, 1, .u16, .rw, .w, .ctx, true, 0⟩,
   ⟨b + 1, 1, 1, 1, .u8, .rw, .p, .ctx, false, 0⟩,
   ⟨b + 2, 1, 1, 2, .u64, .rw, .v, .ctx, true, 0⟩,
   ⟨b + 3, 1, 1, 2, .bool, .wo, .v, .ctx, true, 0⟩,
   ⟨b + 3, 1, 3, 1, .u16, .wo, .v, .ctx, true, 0⟩,
   ⟨b + 3, 1, 4, 1, .bool, .wo, .v, .ctx, true, 0⟩,
   ⟨b + 3, 1, 5, 1, .u32, .wo, .v, .ctx, true, 0⟩,
   ⟨b + 4, 1, 1, 1, .u16, .rw, .p, .ctx, false, 0⟩,
   ⟨b + 4, 1, 2, 1, .u16, .rw, .p, .ctx, false, if c = 0 then 447 else 0⟩,
   ⟨b + 4, 1, 3, 2, .u64, .rw, .p, .ctx, false, 0⟩,
   ⟨b + 5, 1, 1, 1, .u32, .rw, .w, .ctx, true, 0x0BF00000⟩,
   ⟨b + 6, 1, 1, 1, .u32, .rw, .w, .ctx, true, 10000⟩,
   ⟨b + 7, 1, 0, 1, .domain 64, .ro, .w, .ctx, false, 0⟩,
   ⟨b + 8, 1, 0, 1, .domain 128, .ro, .w, .ctx, false, 0⟩,
   ⟨b + 9, 1, 1, 7, .u8, .ro, .v, .ctx, false, 0⟩,
   ⟨b + 10, 1, 1, 7, .u8, .ro, .v, .ctx, false, 0⟩,
   ⟨b + 10, 1, 8, 1, .u32, .ro, .v, .ctx, false, 0⟩]

/-- Memory channels and memory (R87), MOVE (R106), buffer pools (R114). -/
def objs2900 : List ObjRow :=
  [⟨0x2900, 24, 1, 1, .bool, .ro, .v, .op, false, 0⟩,
   ⟨0x2900, 24, 2, 2, .u16, .ro, .v, .op, false, 0⟩,
   ⟨0x2900, 24, 4, 1, .u8, .ro, .v, .op, false, 0⟩,
   ⟨0x2900, 24, 5, 2, .u32, .ro, .w, .op, false, 0⟩,
   ⟨0x2900, 24, 7, 1, .u64, .ro, .w, .op, false, 0⟩,
   ⟨0x2900, 24, 8, 1, .u32, .ro, .w, .op, false, 0⟩,
   ⟨0x2980, 1, 1, 1, .u8, .ro, .v, .op, false, 0⟩,
   ⟨0x2980, 1, 2, 1, .u32, .ro, .v, .op, false, 0⟩,
   ⟨0x2980, 1, 3, 1, .u16, .ro, .v, .op, false, 0⟩,
   ⟨0x2980, 1, 4, 1, .u16, .rw, .p, .op, false, 12800⟩,
   ⟨0x2980, 1, 5, 1, .u16, .rw, .p, .op, false, 24⟩,
   ⟨0x2980, 1, 6, 1, .u16, .rw, .p, .op, false, 128⟩,
   ⟨0x2981, 1, 1, 1, .u16, .rw, .p, .op, false, 64⟩,
   ⟨0x2981, 1, 2, 2, .u32, .ro, .w, .op, false, 0⟩,
   ⟨0x2981, 1, 4, 1, .u16, .const, .p, .const, false, 1⟩,
   ⟨0x2982, 1, 1, 1, .u32, .rw, .p, .op, false, 10000⟩,
   ⟨0x2982, 1, 2, 1, .u8, .ro, .v, .op, false, 0⟩,
   ⟨0x2983, 1, 1, 1, .u32, .rw, .p, .op, false, 200⟩,
   ⟨0x2983, 1, 2, 1, .u8, .rw, .p, .op, false, 8⟩,
   ⟨0x2983, 1, 3, 1, .u8, .rw, .p, .op, false, 32⟩,
   ⟨0x2983, 1, 4, 1, .u8, .rw, .p, .op, false, 64⟩,
   ⟨0x2983, 1, 5, 1, .u8, .ro, .p, .op, false, 4⟩,
   ⟨0x29C0, 64, 1, 2, .u8, .rw, .p, .op, false, 0⟩,
   ⟨0x29C0, 64, 3, 2, .u32, .rw, .p, .op, false, 0⟩,
   ⟨0x29C0, 64, 5, 2, .u32, .ro, .v, .op, false, 0⟩,
   ⟨0x29C0, 64, 7, 1, .u32, .ro, .d, .op, false, 0⟩,
   ⟨0x29C0, 64, 16, 7, .u32, .rw, .p, .op, false, 0⟩,
   ⟨0x29C0, 64, 32, 7, .u32, .ro, .v, .op, false, 0⟩]

/-- Vault and checkpoint (R317), Shuttle (R219). -/
def objs2A00 : List ObjRow :=
  [⟨0x2A00, 1, 1, 1, .u8, .ro, .v, .op, false, 0⟩,
   ⟨0x2A00, 1, 2, 1, .u32, .ro, .v, .op, false, 0⟩,
   ⟨0x2A00, 1, 3, 1, .u16, .rw, .p, .op, false, 100⟩,
   ⟨0x2A00, 1, 4, 2, .u16, .ro, .p, .op, false, 0⟩,
   ⟨0x2A00, 1, 6, 1, .domain 10, .ro, .p, .op, false, 0⟩,
   ⟨0x2A00, 1, 7, 1, .u16, .ro, .v, .op, false, 0⟩,
   ⟨0x2A00, 1, 8, 1, .bool, .ro, .v, .op, false, 0⟩,
   ⟨0x2A01, 1, 0, 1, .domain 1048576, .ro, .p, .op, false, 0⟩,
   ⟨0x2B00, 1, 1, 1, .u16, .rw, .p, .op, false, 64⟩,
   ⟨0x2B00, 1, 2, 1, .u64, .ro, .v, .op, false, 0⟩,
   ⟨0x2B00, 1, 3, 1, .u16, .rw, .p, .op, false, 250⟩,
   ⟨0x2B00, 1, 4, 1, .u16, .rw, .p, .op, false, 80⟩,
   ⟨0x2B00, 1, 5, 1, .u16, .rw, .p, .op, false, 20⟩,
   ⟨0x2B00, 1, 6, 1, .u32, .rw, .p, .op, false, 60000⟩,
   ⟨0x2B00, 1, 7, 1, .u32, .rw, .p, .op, false, 10000⟩,
   ⟨0x2B04, 2, 1, 1, .u8, .ro, .d, .op, false, 0⟩,
   ⟨0x2B04, 2, 2, 1, .u64, .ro, .d, .op, false, 0⟩,
   ⟨0x2B04, 2, 3, 1, .u32, .ro, .d, .op, false, 0⟩,
   ⟨0x2B06, 2, 1, 1, .u64, .ro, .d, .op, false, 0⟩,
   ⟨0x2B06, 2, 2, 1, .u32, .ro, .d, .op, false, 0⟩,
   ⟨0x2B10, 4, 1, 1, .bool, .rw, .p, .ctx, false, 0⟩,
   ⟨0x2B10, 4, 2, 1, .u16, .rw, .w, .ctx, true, 0⟩,
   ⟨0x2B10, 4, 3, 1, .u32, .rw, .w, .ctx, true, 0⟩,
   ⟨0x2B10, 4, 4, 2, .u16, .rw, .p, .ctx, false, 0⟩,
   ⟨0x2B10, 4, 6, 1, .u8, .ro, .v, .ctx, false, 0⟩,
   ⟨0x2B10, 4, 7, 1, .bool, .wo, .v, .ctx, true, 0⟩,
   ⟨0x2B10, 4, 8, 1, .u8, .rw, .p, .ctx, true, 8⟩,
   ⟨0x2B10, 4, 9, 1, .domain 1024, .rw, .w, .ctx, true, 0⟩,
   ⟨0x2B10, 4, 10, 1, .u64, .wo, .v, .ctx, true, 0⟩,
   ⟨0x2B10, 4, 11, 1, .u16, .wo, .v, .ctx, true, 0⟩,
   ⟨0x2B10, 4, 12, 1, .u8, .ro, .v, .ctx, false, 0⟩,
   ⟨0x2B10, 4, 13, 1, .u8, .rw, .v, .ctx, true, 0xFF⟩,
   ⟨0x2B10, 4, 14, 1, .u64, .wo, .v, .ctx, true, 0⟩,
   ⟨0x2C00, 1, 1, 1, .u8, .const, .p, .const, false, 1⟩,
   ⟨0x2C00, 1, 2, 1, .u8, .ro, .v, .op, false, 0⟩,
   ⟨0x2C00, 1, 3, 1, .u16, .ro, .v, .op, false, 0⟩,
   ⟨0x2C00, 1, 4, 1, .u32, .rw, .p, .op, false, 50⟩,
   ⟨0x2C00, 1, 5, 1, .u8, .rw, .p, .op, false, 8⟩,
   ⟨0x2C00, 1, 6, 1, .u32, .rw, .p, .op, false, 1000000⟩,
   ⟨0x2C00, 1, 7, 1, .u32, .rw, .p, .op, false, 2000000⟩,
   ⟨0x2C00, 1, 8, 1, .u16, .rw, .p, .op, false, 64⟩,
   ⟨0x2C00, 1, 9, 1, .u16, .rw, .p, .op, false, 5⟩,
   ⟨0x2C00, 1, 10, 1, .u16, .const, .p, .const, false, 256⟩,
   ⟨0x2C01, 1, 0, 1, .domain 1048576, .ro, .v, .pub, false, 0⟩,
   ⟨0x2C02, 1, 0, 1, .domain 1048576, .ro, .w, .pub, false, 0⟩,
   ⟨0x2C02, 1, 1, 1, .bool, .wo, .v, .op, false, 0⟩]

/-- Counters (R362), log (R365), security (R381), Goose (R339). -/
def objs2D00 : List ObjRow :=
  [⟨0x2D00, 1, 1, 1, .u8, .wo, .v, .op, false, 0⟩,
   ⟨0x2D00, 1, 2, 1, .u8, .ro, .v, .op, false, 0⟩,
   ⟨0x2D00, 1, 3, 1, .domain 32, .ro, .v, .op, false, 0⟩,
   ⟨0x2D00, 1, 4, 1, .u16, .const, .p, .const, false, 256⟩,
   ⟨0x2D00, 1, 5, 1, .u16, .const, .p, .const, false, 912⟩,
   ⟨0x2D00, 1, 6, 1, .domain 32, .rw, .p, .op, false, 0⟩,
   ⟨0x2D01, 1, 0, 1, .domain 29184, .ro, .p, .pub, false, 0⟩,
   ⟨0x2D20, 2, 1, 128, .u16, .rw, .p, .ctx, true, 0⟩,
   ⟨0x2D30, 2, 1, 128, .u32, .rw, .p, .ctx, true, 0⟩,
   ⟨0x2D40, 2, 1, 128, .u8, .rw, .p, .ctx, false, 0xFF⟩,
   ⟨0x2D50, 2, 1, 128, .u48, .ro, .v, .ctx, false, 0⟩,
   ⟨0x2D60, 1, 0, 1, .domain 2048, .ro, .v, .pub, false, 0⟩,
   ⟨0x2D70, 1, 1, 1, .u32, .rw, .p, .op, false, 1024⟩,
   ⟨0x2E00, 1, 1, 2, .u32, .ro, .p, .pub, false, 0⟩,
   ⟨0x2E00, 1, 3, 1, .u32, .rw, .v, .pub, true, 0⟩,
   ⟨0x2E00, 1, 4, 1, .u8, .rw, .v, .pub, true, 0⟩,
   ⟨0x2E00, 1, 5, 1, .u8, .ro, .v, .pub, false, 0⟩,
   ⟨0x2E00, 1, 6, 1, .u32, .ro, .p, .pub, false, 0⟩,
   ⟨0x2E00, 1, 7, 1, .u32, .ro, .p, .op, false, 0⟩,
   ⟨0x2E00, 1, 8, 1, .u16, .const, .p, .const, false, 2000⟩,
   ⟨0x2E01, 1, 0, 1, .domain 4032, .ro, .v, .pub, false, 0⟩,
   ⟨0x2F00, 1, 1, 1, .u32, .const, .p, .pub, false, 0⟩,
   ⟨0x2F00, 1, 2, 3, .u8, .ro, .v, .pub, false, 0⟩,
   ⟨0x2F00, 1, 5, 2, .domain 32, .ro, .v, .pub, false, 0⟩,
   ⟨0x2F00, 1, 7, 2, .u32, .ro, .v, .pub, false, 0⟩,
   ⟨0x2F00, 1, 9, 1, .u8, .ro, .p, .pub, false, 0⟩,
   ⟨0x2F00, 1, 10, 1, .u8, .ro, .v, .pub, false, 0⟩,
   ⟨0x2F00, 1, 11, 1, .u8, .rw, .p, .op, false, 0⟩,
   ⟨0x2F00, 1, 12, 1, .u16, .rw, .p, .op, false, 60⟩,
   ⟨0x2F01, 1, 1, 1, .u8, .wo, .v, .op, false, 0⟩,
   ⟨0x2F01, 1, 2, 1, .u8, .ro, .v, .op, false, 0⟩,
   ⟨0x2F01, 1, 3, 1, .domain 33554432, .wo, .v, .op, false, 0⟩,
   ⟨0x2F01, 1, 4, 1, .u32, .ro, .v, .op, false, 0⟩,
   ⟨0x2F01, 1, 5, 1, .u8, .ro, .v, .op, false, 0⟩,
   ⟨0x2F02, 1, 1, 1, .domain 32, .const, .p, .op, false, 0⟩,
   ⟨0x2F02, 1, 2, 1, .domain 32, .ro, .p, .op, false, 0⟩,
   ⟨0x2F02, 1, 3, 1, .domain 36, .wo, .v, .op, false, 0⟩,
   ⟨0x2F02, 1, 4, 1, .u32, .wo, .v, .op, false, 0⟩,
   ⟨0x2F02, 1, 5, 1, .u8, .ro, .p, .op, false, 0⟩,
   ⟨0x2F02, 1, 6, 1, .u32, .wo, .v, .op, false, 0⟩,
   ⟨0x2F03, 1, 1, 1, .domain 1312, .const, .p, .pub, false, 0⟩,
   ⟨0x2F03, 1, 2, 1, .domain 65536, .const, .p, .pub, false, 0⟩,
   ⟨0x2F03, 1, 3, 1, .domain 32, .wo, .v, .pub, true, 0⟩,
   ⟨0x2F03, 1, 4, 1, .domain 2804, .ro, .v, .pub, false, 0⟩,
   ⟨0x3000, 1, 1, 1, .bool, .rw, .p, .pub, false, 1⟩,
   ⟨0x3000, 1, 2, 1, .u16, .const, .p, .pub, false, 1⟩,
   ⟨0x3000, 1, 3, 1, .u8, .const, .p, .pub, false, 5⟩,
   ⟨0x3000, 1, 4, 1, .u8, .rw, .p, .pub, false, 1⟩,
   ⟨0x3000, 1, 5, 2, .u8, .ro, .p, .pub, false, 0⟩,
   ⟨0x3000, 1, 7, 2, .bool, .wo, .v, .pub, false, 0⟩,
   ⟨0x3000, 1, 9, 1, .u32, .ro, .v, .pub, false, 0⟩,
   ⟨0x3000, 1, 10, 1, .domain 17, .ro, .p, .pub, false, 0⟩,
   ⟨0x3001, 1, 1, 134, .u64, .ro, .v, .pub, false, 0⟩]

/-- The whole dictionary. -/
def objTable : List ObjRow :=
  objs1000 ++ objs2000 ++ objs2500 ++ objs2700 ++ objsCtx 0 ++ objsCtx 1 ++ objsCtx 2 ++ objsCtx 3 ++ objs2900 ++
    objs2A00 ++ objs2D00

/-- The row that covers an index. -/
def ObjRow.hasIdx (r : ObjRow) (idx : Nat) : Bool := decide (r.idx ≤ idx) && decide (idx < r.idx + r.n)

/-- The row that covers a sub-index. -/
def ObjRow.hasSub (r : ObjRow) (sub : Nat) : Bool := decide (r.sub ≤ sub) && decide (sub < r.sub + r.k)

/-- QP indices 0x2720 + 0x20·c + q exist for q below 18, and 0x10 to 0x13 only on the completion QP (R292). -/
def objHole (idx sub : Nat) : Bool :=
  decide (0x2720 ≤ idx) && decide (idx < 0x27A0) &&
    (decide (18 ≤ (idx - 0x2720) % 32) || (decide (16 ≤ sub) && decide ((idx - 0x2720) % 32 ≠ 1)))

/-- An index that some object has. -/
def idxExists (idx : Nat) : Bool := objTable.any fun r => r.hasIdx idx && !(objHole idx 0)

/-- The object of an index and sub-index. -/
def objRow? (idx sub : Nat) : Option ObjRow :=
  if objHole idx sub then none else objTable.find? fun r => r.hasIdx idx && r.hasSub sub

/-- Key of an object in `Mach.dict` and in the store. -/
def objKey (idx sub : Nat) : Nat := idx * 256 + sub

/-- Bytes of a fixed type; none for DOMAIN and strings. -/
def Ty.size : Ty → Option Nat
  | .bool => some 1
  | .u8 => some 1
  | .u16 => some 2
  | .u32 => some 4
  | .u48 => some 6
  | .u64 => some 8
  | .i32 => some 4
  | .domain _ => none
  | .text => none

/-- Check 6 of R347: the data length equals the type's length, or fits the DOMAIN. -/
def Ty.fits (t : Ty) (n : Nat) : Bool :=
  match t with
  | .domain max => decide (n ≤ max)
  | .text => false
  | t => decide (t.size = some n)

/-- The value that data of a type spell. -/
def Ty.value (t : Ty) (b : Bytes) : Val :=
  match t with
  | .domain _ => .bytes b
  | _ => .num (leNat b)

/-- The data that a value of a type is sent as. -/
def Ty.data (t : Ty) (v : Val) : Bytes :=
  match v with
  | .bytes b => b
  | .num n => natLe (t.size.getD 0) n

/-- A value as a number. -/
def Val.toNum : Val → Nat
  | .num n => n
  | .bytes b => leNat b

/-- A value as bytes. -/
def Val.toBytes : Val → Bytes
  | .num _ => []
  | .bytes b => b

/-! ### Defaults that a table cell names by rule -/

/-- Default TPDO mappings of R355: index, sub-index, bits. -/
def tpdoMap : Nat → List (Nat × Nat × Nat)
  | 0 => [(0x2301, 109, 32), (0x2301, 110, 32), (0x2304, 1, 32), (0x2304, 2, 32), (0x2304, 3, 32), (0x2304, 4, 32),
          (0x2304, 5, 32), (0x2301, 155, 32), (0x2301, 156, 32), (0x3000, 5, 8), (0x1001, 0, 8)]
  | 1 => (List.range 12).map fun i => (0x2301, 111 + i, 32)
  | 2 => ((List.range 16).map fun b => (0x2640 + b, 16, 8)) ++ [(0x2500, 6, 8), (0x2700, 2, 8)]
  | 3 => ((List.range 4).map fun c => (0x2800 + 16 * c, 1, 8)) ++ ((List.range 4).map fun f => (0x2501 + f, 8, 8)) ++
          [(0x2A00, 1, 8), (0x2B04, 1, 8), (0x2B05, 1, 8)]
  | _ => []

/-- Default pools of R114: memory, size log2, count, base. -/
def poolDefault (p : Nat) : Nat × Nat × Nat × Nat :=
  if p = 0 then (1, 12, 1024, 0)
  else if p = 1 then (1, 14, 256, 0x400000)
  else if p < 6 then (p, 16, 512, 0)
  else if p < 10 then (p - 4, 20, 32, 0x2000000)
  else (0, 0, 0, 0)

/-- Default quotas of R114. -/
def quotaDefault (p r : Nat) : Nat :=
  if p = 0 then (if r < 4 then 512 else if r = 5 then 256 else 0)
  else if p = 1 then (if r = 5 then 128 else if r = 4 then 192 else 0)
  else if p < 6 then (if r = 4 then 512 else 0)
  else if p < 10 then (if r = 4 then 16 else if r = 6 then 16 else 0)
  else 0

/-- The grade's maximum input power (R1). -/
def Grade.maxPower : Grade → Nat
  | .a => 3600
  | .b => 3500
  | .n => 3550

/-- Loom columns per die (R1, R52). -/
def Grade.cols : Grade → Nat
  | .b => 272
  | _ => 288

/-- The default of an object: the table's, or what the table's cell names by rule (strap, grade, number). -/
def objDefault (g : Grade) (straps : BitVec 16) (nodeId : Nat) (idx sub : Nat) (r : ObjRow) : Val :=
  if 0x1800 ≤ idx ∧ idx < 0x1804 then
    let t := idx - 0x1800
    if sub = 1 then .num (0x180 + 0x100 * t + nodeId)
    else if sub = 3 then .num (if t < 2 then 0 else 100)
    else if sub = 5 then .num (if t < 2 then 100 else 1000)
    else .num r.dflt
  else if 0x1A00 ≤ idx ∧ idx < 0x1A04 then
    let es := tpdoMap (idx - 0x1A00)
    if sub = 0 then .num es.length
    else match es[sub - 1]? with
      | some (i, s, l) => .num (i * 65536 + s * 256 + l)
      | none => .num 0
  else if 0x2600 ≤ idx ∧ idx < 0x2624 ∧ sub = 2 then .num (if straps.getLsbD 13 then 1 else 0)
  else if 0x2640 ≤ idx ∧ idx < 0x2650 then
    let b := idx - 0x2640
    if sub = 1 then .num (if b < 6 then 1 else 0)
    else if sub = 2 then .num (if b < 6 then b else 0)
    else if sub = 3 then .num b
    else if sub = 4 then .num (if b < 6 then 0x3F * 2 ^ (6 * b) else 0)
    else .num r.dflt
  else if idx = 0x2700 ∧ sub = 1 then .num (straps.extractLsb' 11 2).toNat
  else if 0x29C0 ≤ idx ∧ idx < 0x2A00 then
    let p := idx - 0x29C0
    let d := poolDefault p
    if sub = 1 then .num d.1 else if sub = 2 then .num d.2.1 else if sub = 3 then .num d.2.2.1
    else if sub = 4 then .num d.2.2.2
    else if 16 ≤ sub ∧ sub < 23 then .num (quotaDefault p (sub - 16))
    else .num r.dflt
  else if idx = 0x2200 ∧ sub = 3 then .num g.maxPower
  else if idx = 0x2F00 ∧ sub = 11 then .num (if straps.getLsbD 9 then 1 else 0)
  else match r.ty with
    | .domain 16 => .bytes (List.replicate 16 0)
    | .domain 1024 => .bytes (List.replicate 1024 0)
    | .domain 32 => .bytes (List.replicate 32 0)
    | .domain _ => .bytes []
    | _ => .num r.dflt

end Sys2Proof.Machine
end

