-- ==== Sys2Proof/Machine/Ops.lean ====
section
/-! DEFINITION. The named operations every family uses: access to contexts and objects, the memories, event counters, log
records, emergency messages. -/

namespace Sys2Proof.Machine

open Sys2Proof

/-! ### The shape of a command's effect -/

/-- Apply a change of everything but the queue and the fuses. -/
def State.onMach (s : State) (f : Mach → Mach) : State := { s with m := f s.m }

/-- A command that changes only the machine proper. -/
def runs (s : State) (f : Mach → Mach) : Host.Outcome State Fault Refusal := .next (s.onMach f)

/-! ### Contexts, islands, links: reading and changing one -/

/-- Change one context; what becomes ready by it joins the line (R132). -/
def Mach.modCtx (m : Mach) (c : CtxId) (f : Ctx → Ctx) : Mach :=
  { m with ctxs := Vec.upd m.ctxs c fun x => (f x).noted m.nextInLine }

def Mach.modIsland (m : Mach) (i : IslandId) (f : Island → Island) : Mach :=
  { m with islands := Vec.upd m.islands i f }

def Mach.modLink (m : Mach) (l : LinkId) (f : Link → Link) : Mach := { m with links := Vec.upd m.links l f }

def Mach.modBundle (m : Mach) (b : BundleId) (f : Bundle → Bundle) : Mach :=
  { m with net := { m.net with bundles := Vec.upd m.net.bundles b f } }

def Mach.modFold (m : Mach) (k : FoldSlot) (f : Fold → Fold) : Mach :=
  { m with net := { m.net with folds := Vec.upd m.net.folds k f } }

def Mach.modPool (m : Mach) (p : PoolId) (f : Pool → Pool) : Mach := { m with pools := Vec.upd m.pools p f }

def Mach.modPwr (m : Mach) (f : Pwr → Pwr) : Mach := { m with pwr := f m.pwr }

def Mach.modMgmt (m : Mach) (f : Mgmt → Mgmt) : Mach := { m with mgmt := f m.mgmt }

def Mach.modMem (m : Mach) (f : MemSys → MemSys) : Mach := { m with mem := f m.mem }

def Mach.modNet (m : Mach) (f : Net → Net) : Mach := { m with net := f m.net }

def Mach.modQp (m : Mach) (c : CtxId) (q : QpNo) (f : Qp → Qp) : Mach :=
  m.modCtx c fun x => { x with qps := Vec.upd x.qps q f }

/-- The number of a named island as an IslandId. -/
def island (n : Nat) : IslandId := Fin.ofNat 134 n

/-- Every context. -/
def allCtx : List CtxId := [0, 1, 2, 3]

/-- Numbers below n as Fin n. -/
def fins (n : Nat) : List (Fin (n + 1)) := (List.range (n + 1)).map fun i => Fin.ofNat (n + 1) i

/-! ### Dictionary values -/

/-- The value of a stored object: the last write, or its default. -/
def Mach.obj (m : Mach) (idx sub : Nat) : Val :=
  match Sparse.find (objKey idx sub) m.dict with
  | some v => v
  | none => match objRow? idx sub with
    | some r => objDefault m.grade m.pwr.straps m.mgmt.nodeId idx sub r
    | none => .num 0

/-- A stored object as a number. -/
def Mach.num (m : Mach) (idx sub : Nat) : Nat := (m.obj idx sub).toNum

/-- Store an object's value: unlisted where it is the default. -/
def Mach.setObj (m : Mach) (idx sub : Nat) (v : Val) : Mach :=
  let m' := { m with dict := Sparse.erase (objKey idx sub) m.dict }
  if m'.obj idx sub = v then m' else { m with dict := Sparse.put (objKey idx sub) v m.dict }

/-- Index of context c's objects at offset k (R158). -/
def ctxIdx (c : CtxId) (k : Nat) : Nat := 0x2800 + 0x10 * c.val + k

/-- Index of QP q of context c (R292). -/
def qpIdx (c : CtxId) (q : QpNo) : Nat := 0x2720 + 0x20 * c.val + q.val

/-- The local QP number of QP q of context c (R280). -/
def qpNumber (c : CtxId) (q : QpNo) : Nat := 0x0100 + 0x20 * c.val + q.val

/-- The QP that a local QP number names, if any (R280). -/
def qpOfNumber (n : Nat) : Option (CtxId × QpNo) :=
  let k := n - 0x0100
  if 0x0100 ≤ n ∧ k / 0x20 < 4 ∧ k % 0x20 < 18 then some (Fin.ofNat 4 (k / 0x20), Fin.ofNat 18 (k % 0x20)) else none

/-- Index of memory window w of context c (R292). -/
def mwIdx (c : CtxId) (w : MwNo) : Nat := 0x27A0 + 0x10 * c.val + w.val

/-- Priority class of a context (R25). -/
def Mach.classOf (m : Mach) (c : CtxId) : Nat := m.num (ctxIdx c 1) 1

/-- The fold slot bound to a context (R265). -/
def Mach.foldOf (m : Mach) (c : CtxId) : Option FoldSlot :=
  let b := m.num 0x2510 (c.val + 1)
  if h : b < 4 then some ⟨b, h⟩ else none

/-- The fold ID of a context, 0 where it has none. -/
def Mach.foldId (m : Mach) (c : CtxId) : Nat :=
  match m.foldOf c with
  | some f => m.num (0x2501 + f.val) 1
  | none => 0

/-- The context a fold ID names on this module (R265). -/
def Mach.ctxOfFold (m : Mach) (fold : Nat) : Option CtxId :=
  if fold = 0 then none else allCtx.find? fun c => m.foldOf c ≠ none ∧ m.foldId c = fold

/-! ### What leaves the module -/

/-- The QP that sends a message of the host port (R277). -/
def Out.qp : Out → Option (CtxId × QpNo)
  | .mgmtResponse c _ => some (c, 17)
  | .rdmaWriteImm c _ _ _ _ => some (c, 1)
  | .rdmaWrite c q _ _ _ | .rdmaReadReq c q _ _ _ | .rdmaReadResp c q _ | .rcAck c q | .rcNak c q _ | .rnrNak c q _ | .cnp c q =>
    some (c, q)
  | _ => none

/-- A message of the host port that belongs to no QP (R276). -/
def Out.plain : Out → Bool
  | .arpReply _ _ | .neighbourAdvert _ _ | .echoReply _ _ => true
  | _ => false

/-- Priority class of a QP: 0 class A, 1 class B, the management QPs (R277). -/
def qpClass (q : QpNo) : Nat := if q = 17 then 1 else 0

/-- The far end has paused class A (0) or class B (1) (R277). -/
def Mach.hostPaused (m : Mach) (cls : Nat) : Bool := m.host.paused.toNat.testBit (m.num 0x2700 (0x0A + cls))

/-- The VID of transmitted frames, where vlan enables one (R276). -/
def Mach.vid (m : Mach) : Option Nat :=
  if (m.num 0x2700 8).testBit 15 then some (m.num 0x2700 8 % 4096) else none

/-- The envelope of a QP's frames (R276 to R278): ECT(0), the class's DSCP and, in a tag, its priority; the QP's UDP source port. -/
def Mach.envelope (m : Mach) (c : CtxId) (q : QpNo) : Envelope :=
  { vid := m.vid, pcp := m.vid.map fun _ => m.num 0x2700 (0x0A + qpClass q), dscp := m.num 0x2700 (0x0C + qpClass q), ecn := 2,
    sport := 0xC000 + qpNumber c q % 0x4000, mac := m.num (qpIdx c q) 4, qpn := m.num (qpIdx c q) 2 }

/-- A message as it leaves: those of the host port in their envelope. -/
def Mach.wire (m : Mach) (o : Out) : Out :=
  match o.qp with
  | some (c, q) => .framed (m.envelope c q) o
  | none => if o.plain then .framed ⟨m.vid, none, 0, 0, 0, 0, 0⟩ o else o

/-- A message of a QP waits while its class is paused (R277). -/
def Mach.holds (m : Mach) (o : Out) : Bool :=
  match o.qp with
  | some (_, q) => m.hostPaused (qpClass q)
  | none => false

/-- Send a message out of the module. What a QP sends waits while its class is paused, and is lost without a link: RC
retransmission recovers it (R277, R281). -/
def Mach.send (m : Mach) (o : Out) : Mach :=
  if o.qp.isSome && decide (3 ≤ m.host.mode) then m
  else if m.holds o then { m with host := { m.host with waiting := m.host.waiting ++ [o] } }
  else { m with out := m.wire o :: m.out }

/-- Send what waited, in order; what is still paused waits on (R277). -/
def Mach.resend (m : Mach) : Mach := m.host.waiting.foldl Mach.send { m with host := { m.host with waiting := [] } }

/-! ### Event counters (R358 to R361) -/

/-- An occurrence of an event: its source code, its island, and the attributes it may carry (R359). -/
structure Occ where
  src : Nat
  isl : Nat
  ctx : Option CtxId := none
  link : Option LinkId := none
  bundle : Option BundleId := none
  vc : Option VcId := none
  deriving DecidableEq, Repr

/-- Does an occurrence match a counter (R359)? -/
def Counter.counts (k : Counter) (o : Occ) : Bool :=
  let f := k.filter.toNat
  decide (k.source.toNat = o.src) && decide (o.src ≠ 0) &&
    (!(bit f 31) || decide (bits f 30 23 = o.isl)) &&
    (!(bit f 22) || decide (o.ctx.map Fin.val = some (bits f 21 20))) &&
    (!(bit f 19) || decide (o.link.map Fin.val = some (bits f 18 13))) &&
    (!(bit f 12) || decide (o.bundle.map Fin.val = some (bits f 11 8))) &&
    (!(bit f 7) || decide (o.vc.map Fin.val = some (bits f 6 4)))

/-- Add to a 48-bit counter, which holds at its greatest value and sets its overflow bit (R360). -/
def Counter.add (k : Counter) (n : Nat) : Counter :=
  if k.value.toNat + n < 2 ^ 48 then { k with value := BitVec.ofNat 48 (k.value.toNat + n) }
  else { k with value := BitVec.ofNat 48 (2 ^ 48 - 1), overflow := true }

/-- Events of an island are counted while it runs: clock-gated, its counters are frozen (R17). -/
def Mach.counting (m : Mach) (isl : Nat) : Bool := decide ((m.islands[island isl]).st = .run)

/-- n occurrences of an event: every matching counter counts them, unless the network is STOPPED (R361) or the island does not
run (R17). -/
def Mach.count (m : Mach) (o : Occ) (n : Nat := 1) : Mach :=
  if m.netState = .stopped ∨ n = 0 ∨ !m.counting o.isl then m
  else { m with counters := m.counters.map fun k => if k.counts o then k.add n else k }

/-- n occurrences of an event at an island, with the context it carries, if any. -/
def Mach.cnt (m : Mach) (src isl : Nat) (c : Option CtxId := none) (n : Nat := 1) : Mach :=
  m.count ⟨src, isl, c, none, none, none⟩ n

/-! ### Event log (R363, R364) -/

/-- Put a record into the log queue under R364. -/
def Mach.logAdd (m : Mach) (event : Nat) (severity : Nat) (detail : Nat) (data : Bytes) (status : Nat := 0)
    (ctx : Option CtxId := none) (isl : Nat := 0xFF) (src : Nat := 0) : Mach :=
  let r : LogRec := ⟨BitVec.ofNat 16 event, BitVec.ofNat 8 status, BitVec.ofNat 32 detail, severity, ctx,
    BitVec.ofNat 8 isl, BitVec.ofNat 16 src, m.pwr.bootCount, m.log.nextSeq, m.now, data⟩
  if m.log.queue.length < 4096 then
    { m with log := { m.log with queue := m.log.queue ++ [r], nextSeq := m.log.nextSeq + 1 } }
  else
    -- the queue is full: a record of severity 0 or 1 is discarded; another displaces the oldest such record
    let drop := fun (m : Mach) => { (m.count ⟨0xF003, 133, none, none, none, none⟩) with
      log := { m.log with discarded := m.log.discarded + 1 } }
    if severity ≤ 1 then drop m
    else match m.log.queue.findIdx? fun q => decide (q.severity ≤ 1) with
      | none => drop m
      | some i =>
        -- a discarded record takes no log_seq: the records behind the displaced one move up by one (log 12)
        let q := m.log.queue.take i ++ ((m.log.queue.drop (i + 1)).map fun x => { x with seq := x.seq - 1 })
        drop { m with log := { m.log with queue := q ++ [{ r with seq := m.log.nextSeq - 1 }] } }

/-- The log_seq of the newest record. -/
def Mach.lastLogSeq (m : Mach) : BitVec 32 := m.log.nextSeq - 1

/-- A log record's 64 bytes (R363). -/
def LogRec.bytes (r : LogRec) : Bytes :=
  let body := natLe 8 r.ts ++ natLe 4 r.seq.toNat ++ natLe 4 r.bootCount.toNat ++ natLe 2 r.event.toNat ++
    natLe 2 r.source.toNat ++
    natLe 2 (r.island.toNat + (match r.ctx with | some c => 2 ^ 10 + c.val * 2 ^ 8 | none => 0) + r.severity * 2 ^ 11) ++
    natLe 2 (r.status.toNat * 2 ^ 8) ++ natLe 4 r.detail.toNat ++ ((r.data ++ List.replicate 32 0).take 32)
  natLe 4 (crc32 body).toNat ++ body

/-- A corrected error of a source at an island: counted, and logged at each multiple of log_ce_threshold (R364, R365). -/
def Mach.corrected (m : Mach) (o : Occ) : Mach :=
  let key := o.src * 256 + o.isl
  let n := Sparse.get 0 key m.log.ceCounts + 1
  let m := { (m.count o) with log := { (m.count o).log with ceCounts := Sparse.set 0 key n m.log.ceCounts } }
  let t := m.num 0x2D70 1
  if t = 0 ∨ n % t = 0 then m.logAdd 0xFE03 1 0 (natLe 6 n) 0 o.ctx o.isl o.src else m

/-! ### Emergency messages (R356) -/

/-- An EMCY event: its log record, its history entry, its place in the queue of 16. -/
def Mach.emcy (m : Mach) (code : Nat) (detail : Nat) (severity : Nat := 3) (ctx : Option CtxId := none)
    (isl : Nat := 0xFF) (src : Nat := 0) (status : Nat := 0) (data : Bytes := []) : Mach :=
  let m := m.logAdd code severity detail data status ctx isl src
  let e : Emcy := ⟨BitVec.ofNat 16 code, BitVec.ofNat 32 detail, BitVec.ofNat 16 src, BitVec.ofNat 8 isl, ctx,
    m.lastLogSeq⟩
  let hist := BitVec.ofNat 32 ((detail % 65536) * 65536 + code % 65536)
  let m := m.modMgmt fun g => { g with history := (hist :: g.history).take 16, errOwed := true }
  if m.mgmt.nmt = .stopped ∨ m.mgmt.nodeId = 0 ∨ 16 ≤ m.mgmt.emcyQ.length then
    m.count ⟨0xF004, 133, none, none, none, none⟩
  else m.modMgmt fun g => { g with emcyQ := g.emcyQ ++ [e] }

/-- An error of more bits in the SRAM of the hub or of the management subsystem (R320, R357). -/
def Mach.sramUe (m : Mach) (i : IslandId) (severity : Nat) (c : Option CtxId) : Mach :=
  if i = 127 then (m.cnt 0x9001 127 c).emcy 0xFF10 127 severity c 127 0x9001
  else if i = 133 then m.emcy 0xFF10 133 severity c 133
  else m

/-- An error of one bit in 64 in the SRAM of the hub or of the management subsystem (R320). -/
def Mach.sramCe (m : Mach) (i : IslandId) : Mach :=
  if i = 127 then m.corrected ⟨0x9000, 127, none, none, none, none⟩
  else if i = 133 then m.corrected ⟨0xF008, 133, none, none, none, none⟩
  else m

/-! ### Free values -/

/-- n bytes that the manual leaves undefined, from address a. -/
def Mach.freeBytes (m : Mach) (a n : Nat) : Bytes := (List.range n).map fun i => Config.freeByte m.freeCtr (a + i)

/-- A free value has been drawn. -/
def Mach.drew (m : Mach) : Mach := { m with freeCtr := m.freeCtr + 1 }

/-! ### Scratchpad (R76 to R82) and DRAM (R84 to R87) -/

/-- What an unlisted scratchpad byte reads as: zero, since every datapath reset zeroes it (R82). -/
def spadDefault (_ : Nat) : Option Byte := some 0

/-- n bytes of scratchpad from a 32-bit address. -/
def Mach.spadRead (m : Mach) (a n : Nat) : Bytes := (List.range n).map fun i => Sparse.get 0 (a + i) m.spad

/-- Unit u of k bytes lies wholly in a range of n bytes from a. -/
def covers (a n k u : Nat) : Bool := decide (a ≤ u * k) && decide (u * k + k ≤ a + n)

/-- Unit u of k bytes has a byte in common with a range of n bytes from a. -/
def touches (a n k u : Nat) : Bool := decide (n ≠ 0) && decide (u * k < a + n) && decide (a < u * k + k)

/-- The 64-bit scratchpad words that a range covers whole hold no error any more: new check bits (R80, R85). -/
def MemSys.renewWords (s : MemSys) (a n : Nat) : MemSys :=
  { s with badWords := s.badWords.filter fun w => !covers a n 8 w, weakWords := s.weakWords.filter fun w => !covers a n 8 w }

/-- The 64-byte DRAM units that a range covers whole hold no error any more (R85). -/
def MemSys.renewUnits (s : MemSys) (a n : Nat) : MemSys :=
  { s with badUnits := s.badUnits.filter fun u => !covers a n 64 u, weakUnits := s.weakUnits.filter fun u => !covers a n 64 u.1 }

/-- Write scratchpad bytes; a fully written 64-bit word loses its errors (R80, R85). -/
def Mach.spadWrite (m : Mach) (a : Nat) (b : Bytes) : Mach :=
  { m with spad := Memory.writeAll spadDefault a b m.spad, mem := m.mem.renewWords a b.length }

/-- Undefined scratchpad contents in a range. -/
def Mach.spadUndefine (m : Mach) (a n : Nat) : Mach := (m.spadWrite a (m.freeBytes a n)).drew

/-- Capacity of DRAM in bytes: 24 times the DIMM size, 0 while none is known (R84). -/
def Mach.dramCap (m : Mach) : Nat := 24 * (m.mem.chans[(0 : Fin 24)]).sizeGib * 2 ^ 30

/-- DRAM channel of an address (R84). -/
def dramChan (a : Nat) : DramChan := Fin.ofNat 24 (a / 256)

/-- What an unlisted DRAM byte reads as, where that is fixed: zero in ranges a window gained and whose channel has kept its
contents since (R17, R87). -/
def MemSys.dramDefault (s : MemSys) (a : Nat) : Option Byte :=
  if s.zeroed.any fun z => decide (z.1 ≤ a) && decide (a < z.1 + z.2.1) && !z.2.2.contains (dramChan a).val then some 0 else none

/-- One byte of DRAM. -/
def Mach.dramByte (m : Mach) (a : Nat) : Byte :=
  match Sparse.find a m.dram with
  | some b => b
  | none => (m.mem.dramDefault a).getD (Config.freeDram m.mem.dramEpochs[dramChan a] a)

/-- n bytes of DRAM. -/
def Mach.dramRead (m : Mach) (a n : Nat) : Bytes := (List.range n).map fun i => m.dramByte (a + i)

/-- The first uncorrectable 64-byte unit a range of DRAM touches (R85). -/
def Mach.dramBad (m : Mach) (a n : Nat) : Option Nat :=
  m.mem.badUnits.find? (touches a n 64)

/-- The first uncorrectable unit a write covers only in part (R85). -/
def Mach.dramPartBad (m : Mach) (a n : Nat) : Option Nat :=
  m.mem.badUnits.find? fun u => touches a n 64 u && !covers a n 64 u

/-- The first uncorrectable scratchpad word a range touches (R80). -/
def Mach.spadBad (m : Mach) (a n : Nat) : Option Nat :=
  m.mem.badWords.find? (touches a n 8)

/-- The first uncorrectable scratchpad word a write covers only in part (R80, R85). -/
def Mach.spadPartBad (m : Mach) (a n : Nat) : Option Nat :=
  m.mem.badWords.find? fun w => touches a n 8 w && !covers a n 8 w

/-- Scratchpad island of an address: Sd.k with bank bits [12:10] (R14, R77). -/
def spadIsland (a : Nat) : Nat := 23 * bits a 30 29 + 9 + bits a 12 10

/-- Put bytes into DRAM; a fully written unit loses its errors (R85). -/
def Mach.dramPut (m : Mach) (a : Nat) (b : Bytes) : Mach :=
  { m with dram := Memory.writeAll m.mem.dramDefault a b m.dram, mem := m.mem.renewUnits a b.length }

/-- Undefined DRAM contents in a range. -/
def Mach.dramUndefine (m : Mach) (a n : Nat) : Mach := (m.dramPut a (m.freeBytes a n)).drew

/-- A DRAM range zeroed as a window gains it (R87). -/
def Mach.dramZero (m : Mach) (a n : Nat) : Mach :=
  { m with dram := m.dram.filter fun e => !(decide (a ≤ e.1) && decide (e.1 < a + n)),
           mem := { m.mem with zeroed := (a, n, []) :: m.mem.zeroed }.renewUnits a n }

/-! ### Windows (R81, R87) -/

/-- A context's scratchpad window: offsets from, to (exclusive), in bytes. -/
def Mach.spadWindow (m : Mach) (c : CtxId) : Nat × Nat :=
  (m.num (ctxIdx c 4) 1 * 2 ^ 20, m.num (ctxIdx c 4) 2 * 2 ^ 20)

/-- Base of the Drover's regions: cap − 4 × slot_size, the size in force (R295). -/
def Mach.droverBase (m : Mach) : Nat := m.dramCap - 4 * m.drover.slotGib * 2 ^ 30

/-- A context's DRAM window: addresses from, to (exclusive). Context 0's default limit is the start of the Drover regions. -/
def Mach.dramWindow (m : Mach) (c : CtxId) : Nat × Nat :=
  let hi := match Sparse.find (objKey (ctxIdx c 4) 4) m.dict with
    | some v => v.toNum
    | none => if c = 0 then m.droverBase else 0
  (m.num (ctxIdx c 4) 3, hi)

/-- A scratchpad range lies in one die and in the context's window. -/
def Mach.spadInWindow (m : Mach) (c : CtxId) (a n : Nat) : Bool :=
  let o := bits a 28 0
  let w := m.spadWindow c
  decide (a < 2 ^ 31) && decide (w.1 ≤ o) && decide (o + n ≤ w.2)

/-- A DRAM range lies in the context's window and below cap. -/
def Mach.dramInWindow (m : Mach) (c : CtxId) (a n : Nat) : Bool :=
  let w := m.dramWindow c
  decide (w.1 ≤ a) && decide (a + n ≤ w.2) && decide (a + n ≤ m.dramCap)

end Sys2Proof.Machine
end

