-- ==== Sys2Proof/Machine/Ecc.lean ====
section
/-! DEFINITION. ECC of scratchpad and DRAM (R80, R85): what a read of cells in error comes to. -/

namespace Sys2Proof.Machine

open Sys2Proof

/-! ### Corrected errors -/

/-- Nanoseconds of 24 h. -/
def dayNs : Nat := 24 * 3600 * 1000000000

/-- The times, each plus 1, of the last 64 corrected errors of a device, newest first; 0 where there were fewer (R85). -/
def MemChan.ceTimes (k : MemChan) (dev : Nat) : List Nat := (List.range 64).map fun i => Sparse.get 0 (dev * 64 + i) k.ceByDevice

/-- A corrected error of a device at a time. -/
def MemChan.ceAt (k : MemChan) (dev now : Nat) : MemChan :=
  let ts := (now + 1) :: (k.ceTimes dev).take 63
  { k with ceCount := k.ceCount + 1,
           ceByDevice := (List.range 64).foldl (fun d i => Sparse.set 0 (dev * 64 + i) (ts.getD i 0) d) k.ceByDevice }

/-- A device has produced 64 corrected errors within 24 h. -/
def MemChan.failing (k : MemChan) (dev now : Nat) : Bool :=
  (k.ceTimes dev).all fun t => decide (t ≠ 0) && decide (now < t + dayNs)

/-- A corrected error of one device of a channel: counted; the 64th within 24 h marks the device and raises EMCY 0xFF01 (R85). -/
def Mach.dramCe (m : Mach) (ch : DramChan) (dev : Nat) (c : Option CtxId := none) : Mach :=
  let d := dev % 32
  let m := m.corrected ⟨0x7000, 102 + ch.val, c, none, none, none⟩
  let m := m.modMem fun s => { s with chans := Vec.upd s.chans ch fun k => k.ceAt d m.now }
  let k := m.mem.chans[ch]
  if k.failing d m.now ∧ !k.failMap.getLsbD d then
    (m.modMem fun s => { s with chans := Vec.upd s.chans ch fun k => { k with failMap := k.failMap ||| BitVec.ofNat 32 (2 ^ d) } }).emcy
      0xFF01 (ch.val * 256 + d) 1 none (102 + ch.val) 0x7000
  else m

/-- A single-bit scratchpad error is corrected on read (R80). -/
def Mach.spadCe (m : Mach) (w : Nat) (c : Option CtxId) : Mach :=
  (m.corrected ⟨0x2001, spadIsland (w * 8), c, none, none, none⟩).modMem fun s => { s with spadCe := s.spadCe + 1 }

/-- What ECC corrects as a range of scratchpad is read (R80). -/
def Mach.readSpad (m : Mach) (a n : Nat) (c : Option CtxId) : Mach :=
  (m.mem.weakWords.filter (touches a n 8)).foldl (fun m w => m.spadCe w c) m

/-- What ECC corrects as a range of DRAM is read (R85). -/
def Mach.readDram (m : Mach) (a n : Nat) (c : Option CtxId) : Mach :=
  (m.mem.weakUnits.filter fun u => touches a n 64 u.1).foldl (fun m u => m.dramCe (dramChan (u.1 * 64)) u.2 c) m

/-- What ECC corrects as several scratchpad ranges are read; a word that several of them touch is read once. -/
def Mach.readSpads (m : Mach) (rs : List (Nat × Nat)) (c : Option CtxId) : Mach :=
  (m.mem.weakWords.filter fun w => rs.any fun r => touches r.1 r.2 8 w).foldl (fun m w => m.spadCe w c) m

/-! ### Uncorrectable errors -/

/-- An uncorrectable DRAM read: counted, and its address recorded (R85). -/
def Mach.dramUe (m : Mach) (u : Nat) (c : Option CtxId) : Mach :=
  let ch := dramChan (u * 64)
  let m := m.count ⟨0x7001, 102 + ch.val, c, none, none, none⟩
  m.modMem fun s => { s with chans := Vec.upd s.chans ch fun k => { k with ueCount := k.ueCount + 1, lastError := u * 64 } }

/-- An uncorrectable scratchpad read: counted (R80). -/
def Mach.spadUe (m : Mach) (w : Nat) (c : Option CtxId) : Mach :=
  let m := m.count ⟨0x2002, spadIsland (w * 8), c, none, none, none⟩
  m.modMem fun s => { s with spadUe := s.spadUe + 1 }

/-- Memory controller island of an address (R14, R84). -/
def dramIsland (a : Nat) : Nat := 102 + (dramChan a).val

/-- An engine reads a range of scratchpad for a context: the bytes, with what ECC corrects, or the island of an uncorrectable
error (R80). -/
def Mach.fetchSpad (m : Mach) (a n : Nat) (c : Option CtxId) : Mach × Except Nat Bytes :=
  match m.spadBad a n with
  | some w => (m.spadUe w c, .error (spadIsland (w * 8)))
  | none => (m.readSpad a n c, .ok (m.spadRead a n))

/-- An engine reads a range of DRAM for a context (R85). -/
def Mach.fetchDram (m : Mach) (a n : Nat) (c : Option CtxId) : Mach × Except Nat Bytes :=
  match m.dramBad a n with
  | some u => (m.dramUe u c, .error (dramIsland (u * 64)))
  | none => (m.readDram a n c, .ok (m.dramRead a n))

/-- A write that covers DRAM units only in part reads them first: what that read corrects is corrected for good (R85). -/
def Mach.mergeDram (m : Mach) (a n : Nat) (c : Option CtxId) : Mach :=
  let part := fun (u : Nat × Nat) => touches a n 64 u.1 && !covers a n 64 u.1
  ((m.mem.weakUnits.filter part).foldl (fun m u => m.dramCe (dramChan (u.1 * 64)) u.2 c) m).modMem fun s =>
    { s with weakUnits := s.weakUnits.filter fun u => !part u }

/-- The same of scratchpad words (R80, R85). -/
def Mach.mergeSpad (m : Mach) (a n : Nat) (c : Option CtxId) : Mach :=
  let part := fun (w : Nat) => touches a n 8 w && !covers a n 8 w
  ((m.mem.weakWords.filter part).foldl (fun m w => m.spadCe w c) m).modMem fun s =>
    { s with weakWords := s.weakWords.filter fun w => !part w }

/-- Write scratchpad for a context where every word covered in part can be read (R80, R85). -/
def Mach.spadPut (m : Mach) (a : Nat) (b : Bytes) (c : Option CtxId) : Mach := (m.mergeSpad a b.length c).spadWrite a b

/-- Write scratchpad for a context: the word that it covers only in part and that cannot be read stops it (R80, R85). -/
def Mach.spadStore (m : Mach) (a : Nat) (b : Bytes) (c : Option CtxId) : Mach × Option Nat :=
  match m.spadPartBad a b.length with
  | some w => (m.spadUe w c, some (spadIsland (w * 8)))
  | none => (m.spadPut a b c, none)

/-- The first uncorrectable scratchpad word that some ranges touch. -/
def Mach.badSpads (m : Mach) (rs : List (Nat × Nat)) : Option Nat := rs.findSome? fun r => m.spadBad r.1 r.2

/-! ### Upsets -/

/-- A cell is upset: a first error in a unit or word can be corrected, one beyond that cannot. -/
def MemSys.upset (s : MemSys) : Upset → MemSys
  | .spadSingle w => if s.badWords.contains w ∨ s.weakWords.contains w then s else { s with weakWords := w :: s.weakWords }
  | .spadMulti w => { s with badWords := if s.badWords.contains w then s.badWords else s.badWords ++ [w],
                             weakWords := s.weakWords.filter fun x => decide (x ≠ w) }
  | .dramDevice u d =>
    if s.badUnits.contains u ∨ (s.weakUnits.any fun x => decide (x.1 = u)) then s else { s with weakUnits := (u, d % 32) :: s.weakUnits }
  | .dramMulti u => { s with badUnits := if s.badUnits.contains u then s.badUnits else s.badUnits ++ [u],
                             weakUnits := s.weakUnits.filter fun x => decide (x.1 ≠ u) }

/-- What befalls the memories (R77, R80, R85): cells are upset, and the cycles that requests waited for a bank are counted at its
island. -/
def Mach.memEvents (m : Mach) (ev : MemEvents) : Mach :=
  ev.waits.foldl (fun m w => if w.1 < 32 then m.cnt 0x2000 (23 * (w.1 / 8) + 9 + w.1 % 8) none w.2 else m)
    (m.modMem fun s => ev.upsets.foldl MemSys.upset s)

end Sys2Proof.Machine
end

