-- ==== Sys2Proof/Machine/Context.lean ====
section
/-! DEFINITION. The context machinery shared by every engine (chapter 05): how a slot leaves its queue, records, word
completion, and the one way in which a slot faults its context. -/

namespace Sys2Proof.Machine

open Sys2Proof

/-! ### Start conditions (R134, R140) -/

/-- The head slot of an engine queue of a context, if R134 lets it start. -/
def Mach.startable (m : Mach) (c : CtxId) (e : Eng) : Option QSlot := (m.ctxs[c]).readyHead e

/-- Take the head slot out of its queue and consume its tokens. -/
def Mach.takeHead (m : Mach) (c : CtxId) (e : Eng) : Mach :=
  m.modCtx c fun x =>
    match x.queues[e.num] with
    | [] => x
    | s :: rest =>
      let y := x.consume ((waitIds (ctlOf s.bytes)).map fun t => (e.table, t))
      { y with queues := Vec.upd y.queues e.num fun _ => rest }

/-! ### Records (R153, R154) -/

/-- A context's completion records wait in a queue of 256 (R285). -/
def Ctx.recordRoom (x : Ctx) : Bool := decide (x.recordQ.length < 256)

/-- Kinds of R153. -/
inductive RecKind where
  | word | slot | fault | abort | digest
  deriving DecidableEq, Repr

def RecKind.code : RecKind → Nat
  | .word => 1 | .slot => 2 | .fault => 3 | .abort => 4 | .digest => 5

/-- The fields of a record. -/
structure RecFields where
  kind : RecKind
  status : Nat
  eng : Nat := 7
  wordSeq : Nat
  tokenId : Nat := 0
  userTag : Nat := 0
  step : Nat := 0
  ordered : Bool := false
  late : Bool := false
  payload : Bytes := []
  /-- The word the record belongs to: not a fault, not an abort (R141). -/
  uid : Option Nat := none
  deriving DecidableEq, Repr

/-- The 64 bytes of a record (R153). -/
def recordBytes (c : CtxId) (seq : Nat) (ts : Nat) (f : RecFields) : Bytes :=
  let low := f.kind.code + f.status * 2 ^ 8 + c.val * 2 ^ 16 + f.eng * 2 ^ 18 + (if f.late then 2 ^ 24 else 0) +
    (if f.ordered then 2 ^ 25 else 0) + f.wordSeq * 2 ^ 32 + f.tokenId * 2 ^ 48
  natLe 8 low ++ natLe 8 ts ++ natLe 4 f.userTag ++ natLe 4 seq ++ natLe 8 f.step ++
    (f.payload ++ List.replicate 32 0).take 32

/-- Produce a record: it takes the next record_seq and joins the record queue. -/
def Mach.record (m : Mach) (c : CtxId) (f : RecFields) (ts : Option Nat := none) : Mach :=
  m.modCtx c fun x =>
    let r : Record := ⟨x.recordSeq, f.uid, recordBytes c x.recordSeq.toNat (ts.getD m.now) f⟩
    { x with recordQ := x.recordQ ++ [r], recordSeq := x.recordSeq + 1 }

/-! ### Context states (R146) -/

/-- context_state code. -/
def CtxState.code : CtxState → Nat
  | .disabled => 0 | .enabled => 1 | .halting => 2 | .halted => 3 | .faulted => 4 | .resetting => 5

/-- Move a context to a state; the change is logged (R365, 0xFE04). -/
def Mach.setCtxState (m : Mach) (c : CtxId) (st : CtxState) (cause : HaltCause) : Mach :=
  let x := m.ctxs[c]
  let m := m.modCtx c fun x => { x with st := st, cause := cause }
  if x.st = st then m
  else m.logAdd 0xFE04 0 0 ([BitVec.ofNat 8 x.st.code, BitVec.ofNat 8 st.code] ++ natLe 2 x.lastCommitted.toNat) 0 (some c)

/-! ### Faults (R148, R155, R156) -/

/-- No range (R155). -/
def noRange : FaultRange := ⟨0, 0, 0, 0⟩

/-- A scratchpad range. -/
def spadRange (a n : Nat) : FaultRange := ⟨1, 0, a, n⟩

/-- A DRAM range. -/
def dramRange (a n : Nat) : FaultRange := ⟨2, 0, a, n⟩

/-- A remote range. -/
def remoteRange (rank a n : Nat) : FaultRange := ⟨3, rank, a, n⟩

/-- Status codes of R156 that fault a context. -/
inductive Status where
  | engineAbsent | badSlot | badFormat | badTd | indexOutOfRange | windowViolation | quotaWaitTimeout | tokenOverflow
  | tokenDeadlock | collectiveMismatch | levelMismatch | linkLost | staleRole | tallyMismatch | uncorrectable | timeout
  deriving DecidableEq, Repr

def Status.code : Status → Nat
  | .engineAbsent => 0x01 | .badSlot => 0x02 | .badFormat => 0x03 | .badTd => 0x04 | .indexOutOfRange => 0x05
  | .windowViolation => 0x06 | .quotaWaitTimeout => 0x07 | .tokenOverflow => 0x08 | .tokenDeadlock => 0x09
  | .collectiveMismatch => 0x0B | .levelMismatch => 0x0C | .linkLost => 0x0D | .staleRole => 0x0E
  | .tallyMismatch => 0x0F | .uncorrectable => 0x10 | .timeout => 0x11

/-- A failure of a slot: its status and detail, the ranges it leaves undefined, the island where one is named. -/
structure Failure where
  status : Status
  detail : Nat := 0
  range0 : FaultRange := noRange
  range1 : FaultRange := noRange
  island : Nat := 0xFF
  deriving DecidableEq, Repr

/-- The BAD_SLOT detail of R157. -/
def badSlotDetail (reason arg : Nat) : Nat := reason * 2 ^ 24 + arg % 2 ^ 24

/-- A detail that names an object (R156, TIMEOUT). -/
def objDetail (idx sub : Nat) : Nat := idx * 256 + sub

/-- The island a fault names: UNCORRECTABLE's detail is it, except for a buffer pool (R155, R156). -/
def islandOf (st detail : Nat) : Nat := if st = Status.uncorrectable.code then detail % 256 else 0xFF

/-- Fault a context (R148): dispatch stops and no further slot starts; the context is HALTING until its started slots end.
A fault met while one is being contained, or while the context is not running, is absorbed. -/
def Mach.faultCtx (m : Mach) (c : CtxId) (info : FaultInfo) : Mach :=
  let x := m.ctxs[c]
  if x.st = .enabled ∨ (x.st = .halting ∧ x.cause ≠ .fault) then
    (m.setCtxState c .halting .fault).modCtx c fun x =>
      { x with pendingFault := some info, faultEng := info.eng }
  else m

/-- Fault the context of a slot with a failure of that slot. -/
def Mach.failSlot (m : Mach) (c : CtxId) (s : QSlot) (f : Failure) : Mach :=
  let ord := (m.ctxs[c]).words.any fun w => decide (w.uid = s.uid) && (w.ordered || w.stepBoundary)
  m.faultCtx c ⟨BitVec.ofNat 8 f.status.code, BitVec.ofNat 32 f.detail, s.eng.num.val, s.seq,
    BitVec.ofNat 12 (emitId (ctlOf s.bytes)), s.step, ord, f.range0, f.range1, BitVec.ofNat 8 f.island, m.now⟩

/-- The 100 bits of a range in a FAULT record, space lowest: [265:264] space, [279:266] rank, [323:280] start, [363:324] length of
range0, and the same from bit 364 for range1 (R155). -/
def FaultRange.pack (r : FaultRange) : Nat := place r.space 1 0 + place r.rank 15 2 + place r.start 59 16 + place r.length 99 60

/-- The payload of a FAULT record, bits [511:256] of the record (R155). -/
def faultPayload (lastCommitted : BitVec 16) (i : FaultInfo) : Bytes :=
  natLe 32 (i.island.toNat + i.range0.pack * 2 ^ 8 + i.range1.pack * 2 ^ 108 + i.detail.toNat * 2 ^ 208 +
    lastCommitted.toNat * 2 ^ 240)

/-! ### Commit and completion (R135 to R142, R147) -/

/-- Words that lead the list and have completed leave it; the last of them is answered. -/
def retireWords : List WordRec → Option WordRec → List WordRec × Option WordRec
  | [], lw => ([], lw)
  | w :: rest, lw => if w.completed then retireWords rest (some w) else (w :: rest, lw)

/-- Retire a context's completed words; last_committed_seq follows them (R155). -/
def Ctx.retire (x : Ctx) : Ctx :=
  let r := retireWords x.words none
  match r.2 with
  | none => x
  | some w => { x with words := r.1, lastCommitted := w.seq, lastWord := some w }

/-- Something must still be fired when the word's slots have committed: a SYNC emit, or the WORD record that a STEP_BOUNDARY
word always writes (R137, R142). -/
def WordRec.mustFire (w : WordRec) : Bool := decide (w.syncTargets ≠ 0) || w.stepBoundary

/-- Does the emit of a word, or its WORD record, wait for earlier words (R141, R142)? -/
def WordRec.isOrdered (w : WordRec) : Bool := w.ordered || w.stepBoundary

/-- A slot of a word has committed. -/
def WordRec.slotDone (w : WordRec) (e : Eng) : WordRec :=
  let left := w.left.filter (· ≠ e)
  { w with left := left, completed := decide (left = []) && (w.syncFired || !w.mustFire) }

/-- Replace the record of one word. -/
def Ctx.modWord (x : Ctx) (uid : Nat) (f : WordRec → WordRec) : Ctx :=
  { x with words := x.words.map fun w => if w.uid = uid then f w else w }

/-- A slot commits: its token goes to every target or, where a count would pass 65,535, to none and the context faults (R139);
a HOST target writes a SLOT record (R136), `extra` is the DIGEST record of an AUDIT slot; the word counts the commit. -/
def Mach.commitSlot (m : Mach) (c : CtxId) (s : QSlot) (ranges : FaultRange × FaultRange := (noRange, noRange))
    (extra : Option RecFields := none) : Mach :=
  let ctl := ctlOf s.bytes
  let targets := emitTargets ctl
  let id := emitId ctl
  let x := m.ctxs[c]
  match x.overflows targets id with
  | some e => m.failSlot c s { status := .tokenOverflow, detail := id + e * 2 ^ 12, range0 := ranges.1, range1 := ranges.2 }
  | none =>
    let m := m.modCtx c fun x => x.emit targets id
    let ord := x.words.any fun w => decide (w.uid = s.uid) && w.isOrdered
    let m := match extra with
      | some f => m.record c { f with wordSeq := s.seq.toNat, step := s.step.toNat, ordered := ord, eng := s.eng.num.val,
                                      tokenId := if targets = 0 then 0 else id, uid := some s.uid }
      | none => m
    let m := if bit targets 6 then
        m.record c { kind := .slot, status := 0, eng := s.eng.num.val, wordSeq := s.seq.toNat, tokenId := id,
                     step := s.step.toNat, ordered := ord, uid := some s.uid }
      else m
    m.modCtx c fun x => (x.modWord s.uid fun w => w.slotDone s.eng).retire

/-- Would a slot's commit produce a record? -/
def makesRecord (s : QSlot) : Bool :=
  bit (emitTargets (ctlOf s.bytes)) 6 || (decide (s.eng = .audit) && decide (getLe s.bytes 8 1 % 16 < 2))

/-- A slot may pass its commit point: its context has not stopped for good, and there is room for its records (R285). -/
def Mach.mayCommit (m : Mach) (c : CtxId) (s : QSlot) : Bool :=
  let x := m.ctxs[c]
  decide (x.st = .enabled ∨ x.st = .halting) && (x.recordRoom || !makesRecord s)

/-- Fire a word's SYNC emit and write its WORD record, unless an abort has written it (R136, R137, R141, R142, R150). -/
def Mach.fireWord (m : Mach) (c : CtxId) (w : WordRec) : Mach :=
  let t := w.syncTargets.toNat
  match (m.ctxs[c]).overflows t w.syncId.toNat with
  | some e => m.faultCtx c ⟨BitVec.ofNat 8 Status.tokenOverflow.code, BitVec.ofNat 32 (w.syncId.toNat + e * 2 ^ 12), 7, w.seq,
      w.syncId, w.step, w.isOrdered, noRange, noRange, 0xFF, m.now⟩
  | none =>
    let m := m.modCtx c fun x => x.emit t w.syncId.toNat
    let m := if (bit t 6 || w.stepBoundary) && !w.told then
        m.record c { kind := .word, status := 0, wordSeq := w.seq.toNat, tokenId := if t = 0 then 0 else w.syncId.toNat,
                     userTag := w.userTag.toNat, step := w.step.toNat, ordered := w.isOrdered, uid := some w.uid }
      else m
    m.modCtx c fun x => (x.modWord w.uid fun w => { w with syncFired := true, completed := decide (w.left = []) }).retire

/-- Every earlier word has completed, and every record of theirs has been written (R141). -/
def Ctx.earlierDone (x : Ctx) (uid : Nat) : Bool :=
  (x.words.all fun v => decide (uid ≤ v.uid) || v.completed) &&
    x.recordQ.all fun r => match r.uid with
      | some u => decide (uid ≤ u)
      | none => true

/-- May a word's emit fire now: all its slots committed, not fired yet, room for its record, and, where it is ordered, every
earlier word complete with its records written and no fault being contained (R141, R325)? -/
def Ctx.mayFire (x : Ctx) (w : WordRec) : Bool :=
  decide (w.left = []) && !w.syncFired && w.mustFire && x.recordRoom &&
    (!w.isOrdered || (x.pendingFault.isNone && x.earlierDone w.uid))

/-- A context in which commits and emits still happen: running, or stopping. -/
def Ctx.live (x : Ctx) : Bool := decide (x.st = .enabled ∨ x.st = .halting ∨ (x.st = .halted ∧ x.cause = .halt))

/-! ### Islands and work (R17, R18) -/

/-- Compute-die islands 0 to 91. -/
def dieIslands : List IslandId := (List.range 92).map island

/-- Work can reach islands: none is power-gated or in reset. -/
def Mach.reachable (m : Mach) (is : List IslandId) : Bool :=
  is.all fun i => decide ((m.islands[i]).st = .run) || decide ((m.islands[i]).st = .clockGated)

/-- Work arriving at CLOCK_GATED islands wakes them (R18). -/
def Mach.wake (m : Mach) (is : List IslandId) : Mach :=
  is.foldl (fun m i => m.modIsland i fun x => if x.st = .clockGated then { x with st := .run } else x) m

/-- Goose owes tiles to one of some islands: after a clock or voltage step an island accepts no further work before them
(R336). -/
def Mach.tilesOwed (m : Mach) (is : List IslandId) : Bool := is.any fun i => (m.islands[i]).tileDue

/-- The 36 Loom islands. -/
def loomIslands : List IslandId := (List.range 36).map fun j => island (23 * (j / 9) + j % 9)

/-- The 4 vector islands. -/
def vectorIslands : List IslandId := (List.range 4).map fun d => island (23 * d + 17)

/-- The 32 scratchpad islands. -/
def spadIslands : List IslandId := (List.range 32).map fun j => island (23 * (j / 8) + 9 + j % 8)

/-- Work arrives at islands: one that is power-gated or in reset holds its sender back, and nothing happens yet; a clock-gated one
wakes, and the work goes on (R17, R18). -/
def Mach.over (m : Mach) (is : List IslandId) (f : Mach → Mach) : Mach := if m.reachable is then f (m.wake is) else m

/-! ### Paths (R9 to R11, R14) -/

/-- The hub bridge of compute die d, both halves. -/
def hubBridge (d : Nat) : List IslandId := [island (23 * d + 19), island (23 * d + 20)]

/-- The scratchpad islands that n bytes from address a lie in. -/
def spadAt (a n : Nat) : List IslandId :=
  if n = 0 then [] else (List.range (min 8 ((a % 1024 + n - 1) / 1024 + 1))).map fun i => island (spadIsland (a / 1024 * 1024 + 1024 * i))

/-- The memory controller islands that n bytes of DRAM from address a lie behind. -/
def dramAt (a n : Nat) : List IslandId :=
  if n = 0 then [] else (List.range (min 24 ((a % 256 + n - 1) / 256 + 1))).map fun i =>
    island (102 + (dramChan (a / 256 * 256 + 256 * i)).val)

/-- From the hub to n bytes of scratchpad: crossbar, hub bridge, scratchpad islands (R9, R11). -/
def spadPath (a n : Nat) : List IslandId := if n = 0 then [] else 126 :: hubBridge (bits a 30 29) ++ spadAt a n

/-- From the hub to n bytes of DRAM: crossbar, memory controllers (R11). -/
def dramPath (a n : Nat) : List IslandId := if n = 0 then [] else 126 :: dramAt a n

/-- Between compute dies d and e: none for one die, the row or the column bridges of neighbours, both hub bridges and the crossbar
on the diagonal; never a third die (R9, R10). -/
def diePath (d e : Nat) : List IslandId :=
  if d = e then []
  else if d / 2 = e / 2 then [island (23 * d + 21), island (23 * e + 21)]
  else if d % 2 = e % 2 then [island (23 * d + 22), island (23 * e + 22)]
  else hubBridge d ++ 126 :: hubBridge e

/-- From the crossbar through a fabric link (R11). -/
def linkPath (l : LinkId) : List IslandId := [126, island (92 + l.val / 4)]

/-- From the crossbar through the host port (R11). -/
def hostPath : List IslandId := [101, 126]

/-- Put islands into a state. -/
def Mach.setIslands (m : Mach) (is : List IslandId) (st : IslandState) : Mach :=
  is.foldl (fun m i => m.modIsland i fun x => { x with st := st, poweringOn := false, gateReq := false }) m

/-- DRAM goes into or out of self-refresh: channels and module (R83, R384). -/
def Mach.selfRefresh (m : Mach) (on : Bool) : Mach :=
  m.modMem fun s =>
    if on then
      { s with dramState := if s.dramState = 2 then 3 else s.dramState,
               chans := s.chans.map fun k => if k.st = 2 then { k with st := 5 } else k }
    else
      { s with dramState := if s.dramState = 3 then 2 else s.dramState,
               chans := s.chans.map fun k => if k.st = 5 then { k with st := 2 } else k }

/-- ACTIVE or IDLE to QUIET (R382, R384): DRAM in self-refresh, scratchpad at retention voltage, Loom and vector islands
power-gated. Retention voltage is POWER_GATED with contents kept (R17, log 30). -/
def Mach.enterQuiet (m : Mach) : Mach :=
  ((m.selfRefresh true).setIslands (loomIslands ++ vectorIslands ++ spadIslands) .powerGated).modPwr fun p =>
    { p with modState := .quiet }

/-- QUIET to ACTIVE (R384). -/
def Mach.leaveQuiet (m : Mach) : Mach :=
  if m.pwr.modState ≠ .quiet then m
  else ((m.selfRefresh false).setIslands (loomIslands ++ vectorIslands ++ spadIslands) .run).modPwr fun p =>
    { p with modState := .active, transition := if p.transition = some .active then none else p.transition }

/-- The engines of the hub work: the module is ACTIVE, or IDLE (R382). -/
def Mach.works (m : Mach) : Bool := decide (m.pwr.modState = .active) || decide (m.pwr.modState = .idle)

/-- Another context's head slot of an engine goes first: it is ready in a higher class, or became ready earlier in the same one
(R132, VAULT and CONF). -/
def Mach.headAhead (m : Mach) (c : CtxId) (e : Eng) (s : QSlot) : Bool :=
  allCtx.any fun d => decide (d ≠ c) && (match m.startable d e with
    | some q => decide (q.cls < s.cls) ||
        (decide (q.cls = s.cls) && decide ((m.ctxs[d]).placeOf e q.uid < (m.ctxs[c]).placeOf e s.uid))
    | none => false)

end Sys2Proof.Machine
end

