-- ==== Sys2Proof/Machine/Numbers.lean ====
section
/-! DEFINITION. Number formats, rounding, conversion and the counter-based generator (chapter 02). -/

namespace Sys2Proof.Machine

open Sys2Proof

/-! ### Exact values -/

/-- A value as the engines see it: NaN, a signed infinity, or (−1)^neg × m × 2^e; m = 0 is a signed zero. -/
inductive Num where
  | nan
  | inf (neg : Bool)
  | fin (neg : Bool) (m : Nat) (e : Int)
  deriving DecidableEq, Repr

/-- Plus zero. -/
def Num.zero : Num := .fin false 0 0

/-- The value of an integer. -/
def Num.ofInt (i : Int) : Num := .fin (decide (i < 0)) i.natAbs 0

/-- Sign of a value, as a bit. -/
def Num.isNeg : Num → Bool
  | .nan => false
  | .inf s => s
  | .fin s _ _ => s

def Num.isNan : Num → Bool
  | .nan => true
  | _ => false

/-- Neither NaN nor infinite. -/
def Num.finite : Num → Bool
  | .fin _ _ _ => true
  | _ => false

def Num.isZero : Num → Bool
  | .fin _ 0 _ => true
  | _ => false

/-- ⌊log₂|x|⌋ of a finite nonzero value. -/
def Num.exp : Num → Int
  | .fin _ m e => (Nat.log2 m : Int) + e
  | _ => 0

/-- Change of sign. -/
def Num.neg : Num → Num
  | .nan => .nan
  | .inf s => .inf !s
  | .fin s m e => .fin (!s) m e

/-- Absolute value. -/
def Num.abs : Num → Num
  | .nan => .nan
  | .inf _ => .inf false
  | .fin _ m e => .fin false m e

/-- The signed mantissa of a finite value at exponent q ≤ e. -/
def Num.at (s : Bool) (m : Nat) (e q : Int) : Int :=
  let v : Int := (m : Int) * (2 : Int) ^ (e - q).toNat
  if s then -v else v

/-- Exact sum; a zero sum is +0 unless both addends are negative (IEEE 754 RNE). -/
def Num.add : Num → Num → Num
  | .nan, _ => .nan
  | _, .nan => .nan
  | .inf s, .inf t => if s = t then .inf s else .nan
  | .inf s, _ => .inf s
  | _, .inf t => .inf t
  | .fin s m e, .fin t n f =>
    if m = 0 ∧ n = 0 then .fin (s && t) 0 0
    else
      let q := min e f
      let v := Num.at s m e q + Num.at t n f q
      if v = 0 then .fin false 0 0 else .fin (decide (v < 0)) v.natAbs q

/-- Exact product. -/
def Num.mul : Num → Num → Num
  | .nan, _ => .nan
  | _, .nan => .nan
  | .inf s, .inf t => .inf (s != t)
  | .inf s, .fin t m _ => if m = 0 then .nan else .inf (s != t)
  | .fin s m _, .inf t => if m = 0 then .nan else .inf (s != t)
  | .fin s m e, .fin t n f => .fin (s != t) (m * n) (e + f)

/-- x < y for values that are not NaN; zeros are equal. -/
def Num.lt : Num → Num → Bool
  | .nan, _ => false
  | _, .nan => false
  | .inf s, .inf t => s && !t
  | .inf s, _ => s
  | _, .inf t => !t
  | .fin s m e, .fin t n f =>
    let q := min e f
    decide (Num.at s m e q < Num.at t n f q)

/-! ### Formats (R26, R31) -/

/-- The format codes of R26. -/
inductive Fmt where
  | bf16 | fp16 | fp32 | e4m3 | e5m2 | mx8e4m3 | mx8e5m2 | mx6e3m2 | mx6e2m3 | mx4 | mxint8
  | int8 | int16 | int32 | int64 | fp64 | b8 | i32s | u16 | u32
  deriving DecidableEq, Repr

/-- The format of a code; reserved codes have none. -/
def Fmt.ofCode (n : Nat) : Option Fmt :=
  if n = 0 then none
  else [Fmt.bf16, .fp16, .fp32, .e4m3, .e5m2, .mx8e4m3, .mx8e5m2, .mx6e3m2, .mx6e2m3, .mx4, .mxint8,
        .int8, .int16, .int32, .int64, .fp64, .b8, .i32s, .u16, .u32][n - 1]?

/-- Bits of one element, without the scale (R26). -/
def Fmt.bits : Fmt → Nat
  | .bf16 | .fp16 | .int16 | .u16 => 16
  | .fp32 | .int32 | .i32s | .u32 => 32
  | .fp64 | .int64 => 64
  | .mx6e3m2 | .mx6e2m3 => 6
  | .mx4 => 4
  | _ => 8

/-- MX block formats. -/
def Fmt.isMx : Fmt → Bool
  | .mx8e4m3 | .mx8e5m2 | .mx6e3m2 | .mx6e2m3 | .mx4 | .mxint8 => true
  | _ => false

/-- Wire formats of the Shuttle (R27). -/
def Fmt.isWire : Fmt → Bool
  | .b8 | .i32s => true
  | _ => false

/-- Integer formats, signed and index. -/
def Fmt.isInt : Fmt → Bool
  | .int8 | .int16 | .int32 | .int64 | .u16 | .u32 => true
  | _ => false

/-- A floating-point element's layout: exponent bits, fraction bits, bias. -/
structure Layout where
  ebits : Nat
  fbits : Nat
  bias : Int
  deriving DecidableEq, Repr

/-- Layout of the floating-point formats and MX elements (R31). -/
def Fmt.layout : Fmt → Layout
  | .bf16 => ⟨8, 7, 127⟩
  | .fp16 => ⟨5, 10, 15⟩
  | .fp32 => ⟨8, 23, 127⟩
  | .fp64 => ⟨11, 52, 1023⟩
  | .e4m3 | .mx8e4m3 => ⟨4, 3, 7⟩
  | .e5m2 | .mx8e5m2 => ⟨5, 2, 15⟩
  | .mx6e3m2 => ⟨3, 2, 3⟩
  | .mx6e2m3 => ⟨2, 3, 1⟩
  | .mx4 => ⟨2, 1, 1⟩
  | _ => ⟨0, 0, 0⟩

/-- IEEE formats: infinity and NaN take the all-ones exponent (R31). E5M2 follows them. -/
def Fmt.ieee : Fmt → Bool
  | .bf16 | .fp16 | .fp32 | .fp64 | .e5m2 | .mx8e5m2 => true
  | _ => false

/-- Largest finite magnitude m × 2^e (R31). -/
def Fmt.maxFinite (f : Fmt) : Nat × Int :=
  match f with
  | .e4m3 | .mx8e4m3 => (7, 6)
  | .mx6e3m2 => (7, 2)
  | .mx6e2m3 => (15, -1)
  | .mx4 => (3, 1)
  | f =>
    let l := f.layout
    (2 ^ (l.fbits + 1) - 1, ((2 ^ l.ebits - 2 : Nat) : Int) - l.bias - l.fbits)

/-- Canonical NaN of a floating-point destination (R33). -/
def Fmt.canonNan : Fmt → Nat
  | .bf16 => 0x7FC0
  | .fp16 => 0x7E00
  | .fp32 => 0x7FC00000
  | .fp64 => 0x7FF8000000000000
  | .e4m3 => 0x7F
  | .e5m2 => 0x7E
  | _ => 0

/-- Range of an integer destination (R35). -/
def Fmt.intRange : Fmt → Int × Int
  | .int8 => (-128, 127)
  | .int16 => (-32768, 32767)
  | .int32 => (-2147483648, 2147483647)
  | .int64 => (-9223372036854775808, 9223372036854775807)
  | .u16 => (0, 65535)
  | .u32 => (0, 4294967295)
  | _ => (0, 0)

/-! ### Decoding (R31, R32) -/

/-- Value of a floating-point element's bits. -/
def Fmt.decodeFloat (f : Fmt) (n : Nat) : Num :=
  let l := f.layout
  let s := bit n (l.ebits + l.fbits)
  let e := Machine.bits n (l.ebits + l.fbits - 1) l.fbits
  let fr := n % 2 ^ l.fbits
  if f.ieee ∧ e = 2 ^ l.ebits - 1 then (if fr = 0 then .inf s else .nan)
  else if (f = .e4m3 ∨ f = .mx8e4m3) ∧ e = 15 ∧ fr = 7 then .nan
  else if e = 0 then .fin s fr (1 - l.bias - l.fbits)
  else .fin s (2 ^ l.fbits + fr) (e - l.bias - l.fbits)

/-- Value of a scalar element, or of an MX element before its scale. -/
def Fmt.decode (f : Fmt) (n : Nat) : Num :=
  match f with
  | .int8 | .int16 | .int32 | .int64 | .i32s | .b8 => Num.ofInt (signed f.bits n)
  | .u16 | .u32 => Num.ofInt (n % 2 ^ f.bits : Nat)
  | .mxint8 => match Num.ofInt (signed 8 n) with
    | .fin s m e => .fin s m (e - 6)
    | x => x
  | f => f.decodeFloat n

/-- An MX element under its block's scale byte (R32). -/
def mxScaled (x : Num) (scale : Nat) : Num :=
  if scale = 0xFF then .nan
  else match x with
    | .fin s m e => if m = 0 then x else .fin s m (e + scale - 127)
    | x => x

/-! ### Rounding (R34 to R36) -/

/-- m × 2^e in units of 2^q, rounded to nearest, ties to even. -/
def rneUnits (m : Nat) (e q : Int) : Nat :=
  if q ≤ e then m * 2 ^ (e - q).toNat
  else
    let d := (q - e).toNat
    let t := m / 2 ^ d
    let r := m % 2 ^ d
    if 2 * r > 2 ^ d ∨ (2 * r = 2 ^ d ∧ t % 2 = 1) then t + 1 else t

/-- m × 2^e in units of 2^q, rounded stochastically by a 32-bit random word (R36). -/
def stochUnits (m : Nat) (e q : Int) (u : Nat) : Nat :=
  if q ≤ e then m * 2 ^ (e - q).toNat
  else
    let d := (q - e).toNat
    let t := m / 2 ^ d
    let r := m % 2 ^ d
    let fr := r * 2 ^ 32 / 2 ^ d
    if u < fr then t + 1 else t

/-- A finite nonzero value rounded by RNE to p significand bits, without bounds on the exponent. -/
def roundSig (p : Nat) (m : Nat) (e : Int) : Nat × Int :=
  if m = 0 then (0, 0)
  else
    let q := (Nat.log2 m : Int) + e - (p - 1 : Nat)
    (rneUnits m e q, q)

/-- m × 2^e exceeds n × 2^f. -/
def magGt (m : Nat) (e : Int) (n : Nat) (f : Int) : Bool :=
  let q := min e f
  decide (n * 2 ^ (f - q).toNat < m * 2 ^ (e - q).toNat)

/-- Bits of sign, and a magnitude t × 2^q on the grid of a layout, in range. -/
def packFloat (l : Layout) (s : Bool) (t : Nat) (q : Int) : Nat :=
  let sb := if s then 2 ^ (l.ebits + l.fbits) else 0
  if t = 0 then sb
  else
    let ex := (Nat.log2 t : Int) + q
    let emin := 1 - l.bias
    if ex < emin then sb + (t * 2 ^ (q - (emin - l.fbits)).toNat)
    else
      let k := Nat.log2 t
      let fr := if k ≤ l.fbits then t * 2 ^ (l.fbits - k) - 2 ^ l.fbits else t / 2 ^ (k - l.fbits) - 2 ^ l.fbits
      sb + (ex + l.bias).toNat * 2 ^ l.fbits + fr

/-- The result of a conversion: the element's bits, whether it saturated, whether a NaN became an integer. -/
structure Conv where
  bits : Nat
  sat : Bool := false
  nanInt : Bool := false
  deriving DecidableEq, Repr

/-- Convert to a floating-point element: RNE, or stochastically by a random word (R34, R36). -/
def Fmt.encodeFloat (f : Fmt) (u : Option Nat) (x : Num) : Conv :=
  let l := f.layout
  let sb := fun (s : Bool) => if s then 2 ^ (l.ebits + l.fbits) else 0
  let allOnes := (2 ^ l.ebits - 1) * 2 ^ l.fbits
  match x with
  | .nan => ⟨f.canonNan, false, false⟩
  | .inf s => if f = .e4m3 then ⟨f.canonNan, false, false⟩ else ⟨sb s + allOnes, false, false⟩
  | .fin s m e =>
    if m = 0 then ⟨sb s, false, false⟩
    else
      let ex := (Nat.log2 m : Int) + e
      let q := max ex (1 - l.bias) - l.fbits
      let t := match u with
        | none => rneUnits m e q
        | some w => stochUnits m e q w
      let mx := f.maxFinite
      if magGt t q mx.1 mx.2 then
        (if f = .bf16 ∨ f = .fp16 ∨ f = .fp32 ∨ f = .fp64 then ⟨sb s + allOnes, false, false⟩
         else ⟨packFloat l s mx.1 mx.2, true, false⟩)
      else ⟨packFloat l s t q, false, false⟩

/-- Convert to an integer: RNE, saturating (R35). -/
def Fmt.encodeInt (f : Fmt) (x : Num) : Conv :=
  let r := f.intRange
  let put := fun (i : Int) => (i % (2 ^ f.bits : Nat)).toNat
  match x with
  | .nan => ⟨0, false, true⟩
  | .inf s => ⟨put (if s then r.1 else r.2), true, false⟩
  | .fin s m e =>
    let t := rneUnits m e 0
    let v : Int := if s then -(t : Int) else t
    if v < r.1 then ⟨put r.1, true, false⟩
    else if r.2 < v then ⟨put r.2, true, false⟩
    else ⟨put v, false, false⟩

/-- Convert to a scalar format. -/
def Fmt.encode (f : Fmt) (u : Option Nat) (x : Num) : Conv :=
  if f.isInt then f.encodeInt x else f.encodeFloat u x

/-- A value as it reads back after conversion to a format. -/
def Fmt.rnd (f : Fmt) (x : Num) : Num := f.decode (f.encode none x).bits

/-- Round to FP32, the working precision. -/
def rnd32 (x : Num) : Num := Fmt.rnd .fp32 x

/-! ### MX quantisation (R44) -/

/-- emax_elem of R44. -/
def Fmt.emaxElem : Fmt → Int
  | .mx8e4m3 => 8
  | .mx8e5m2 => 15
  | .mx6e3m2 => 4
  | .mx6e2m3 => 2
  | .mx4 => 2
  | _ => 0

/-- Largest exponent of the finite nonzero values of a list, if any. -/
def maxExp (xs : List Num) : Option Int :=
  xs.foldl (fun a x => if x.finite ∧ ¬ x.isZero then some (match a with | none => x.exp | some b => max b x.exp) else a) none

/-- Convert an element already divided by its scale to an MX element's bits: RNE or stochastic, saturating. DESIGN CHOICE: an MXINT8
element that rounds to −2.0 is 0x80 and is not counted as saturated, one that rounds below it is 0x80 and is (log 69). -/
def Fmt.encodeElem (f : Fmt) (u : Option Nat) (x : Num) : Conv :=
  match f with
  | .mxint8 => match x with
    | .fin s m e =>
      let t := rneUnits m (e + 6) 0
      let v : Int := if s then -(t : Int) else t
      if v < -128 then ⟨0x80, true, false⟩ else if 127 < v then ⟨127, true, false⟩ else ⟨(v % 256).toNat, false, false⟩
    | _ => ⟨0, false, false⟩
  | f => f.encodeFloat u x

/-- Quantise the values of one block: element bits, scale byte, which elements saturated. `us` gives the random word of element k. -/
def mxBlock (f : Fmt) (us : Nat → Option Nat) (xs : List Num) : List Nat × Nat × List Bool :=
  if xs.any fun x => !x.finite then (xs.map fun _ => 0, 0xFF, xs.map fun _ => false)
  else match maxExp xs with
    | none => (xs.map fun x => if x.isNeg ∧ f ≠ .mxint8 then 2 ^ (f.bits - 1) else 0, 0, xs.map fun _ => false)
    | some em =>
      let sc := min (max (em - f.emaxElem + 127) 0) 254
      let cs := (xs.zip (List.range xs.length)).map fun p =>
        match p.1 with
        | .fin s m e => f.encodeElem (us p.2) (.fin s m (e - (sc - 127)))
        | x => f.encodeElem none x
      (cs.map Conv.bits, sc.toNat, cs.map Conv.sat)

/-! ### The generator (R39 to R41) -/

/-- Rotate a 32-bit value left. -/
def rotl32 (v n : Nat) : Nat := (v * 2 ^ n + v / 2 ^ (32 - n)) % 2 ^ 32

/-- One round of gen: c0, c1, c2, c3, k0, k1. -/
def genRound (x : Nat × Nat × Nat × Nat × Nat × Nat) : Nat × Nat × Nat × Nat × Nat × Nat :=
  let (c0, c1, c2, c3, k0, k1) := x
  let p0 := c0 * 0xB5E34F2D
  let p1 := c2 * 0xD1A73C6B
  (rotl32 (p1 / 2 ^ 32 ^^^ c1 ^^^ k0) 7, p1 % 2 ^ 32, rotl32 (p0 / 2 ^ 32 ^^^ c3 ^^^ k1) 11, p0 % 2 ^ 32,
   (k0 + 0xA5C31E87) % 2 ^ 32, (k1 + 0x6B2FD459) % 2 ^ 32)

/-- n rounds. -/
def genRounds : Nat → Nat × Nat × Nat × Nat × Nat × Nat → Nat × Nat × Nat × Nat × Nat × Nat
  | 0, x => x
  | n + 1, x => genRounds n (genRound x)

/-- gen(seed, step, tag, j) of R39. -/
def gen (seed step tag j : Nat) : Nat × Nat × Nat × Nat :=
  let r := genRounds 10 (bits j 31 0, bits j 63 32, tag % 2 ^ 32, bits step 31 0, bits seed 31 0,
    bits seed 63 32 ^^^ bits step 63 32)
  (r.1, r.2.1, r.2.2.1, r.2.2.2.1)

/-- u(seed, step, tag, i) of R39. -/
def genU (seed step tag i : Nat) : Nat :=
  let g := gen seed step tag (i / 4)
  match i % 4 with
  | 0 => g.1
  | 1 => g.2.1
  | 2 => g.2.2.1
  | _ => g.2.2.2

/-! ### Passes (R42) -/

/-- hi of R42: 8 significant bits by RNE. -/
def splitHi : Num → Num
  | .fin s m e => let r := roundSig 8 m e; .fin s r.1 r.2
  | x => x

/-- lo of R42: what hi leaves, 8 significant bits by RNE. -/
def splitLo (x : Num) : Num :=
  match x with
  | .fin _ _ _ => splitHi (x.add (splitHi x).neg)
  | _ => .fin false 0 0

/-! ### Wire formats (R45 to R49) -/

/-- The integer nearest x / 2^s, ties to even. -/
def wireInt (x : Num) (s : Int) : Int :=
  match x with
  | .fin g m e => let t : Int := rneUnits m e s; if g then -t else t
  | _ => 0

/-- q of R46 (bits = 31) or R48 (bits = 7), clamped to the share of one of N contributions; true where it was clamped. -/
def wireQ (width : Nat) (l : Nat) (s : Int) (x : Num) : Int × Bool :=
  let q := wireInt x s
  let hi : Int := (2 ^ (width - l) : Nat) - 1
  let lo : Int := -((2 ^ (width - l) : Nat) : Int)
  if hi < q then (hi, true) else if q < lo then (lo, true) else (q, false)

/-- An integer total at scale 2^s as a value. -/
def wireValue (q : Int) (s : Int) : Num := .fin (decide (q < 0)) q.natAbs s

/-- ⌈log₂ n⌉. -/
def clog2 (n : Nat) : Nat := if n ≤ 1 then 0 else Nat.log2 (n - 1) + 1

end Sys2Proof.Machine
end

