-- ==== Sys2Proof/Machine/Operands.lean ====
section
/-! DEFINITION. Operand forms: tensor descriptors (R89 to R95), the places of their rows and elements (R28, R29, R90, R93),
and reading and writing tensors in scratchpad and DRAM. -/

namespace Sys2Proof.Machine

open Sys2Proof

/-! ### Tensor descriptors (R89) -/

/-- A tensor descriptor. Sizes are true sizes (field + 1), strides signed and in units of 16 bytes. -/
structure Td where
  raw : Nat
  addr : Nat
  fmt : Nat
  dims : Nat
  size0 : Nat
  size1 : Nat
  size2 : Nat
  size3 : Nat
  stride1 : Int
  stride2 : Int
  stride3 : Int
  indexAddr : Nat
  indexFmt : Bool
  indexBound : Nat
  dramHi : Nat
  inDram : Bool
  reserved : Nat
  deriving DecidableEq, Repr

/-- The descriptor whose 256 bits are n. -/
def parseTd (n : Nat) : Td :=
  { raw := n, addr := bits n 31 0, fmt := bits n 37 32, dims := bits n 39 38, size0 := bits n 55 40 + 1,
    size1 := bits n 71 56 + 1, size2 := bits n 87 72 + 1, size3 := bits n 103 88 + 1,
    stride1 := signed 24 (bits n 127 104), stride2 := signed 24 (bits n 151 128), stride3 := signed 24 (bits n 175 152),
    indexAddr := bits n 207 176, indexFmt := bit n 208, indexBound := bits n 240 209, dramHi := bits n 252 241,
    inDram := bit n 253, reserved := bits n 255 254 }

/-- Size of dimension d. -/
def Td.size (t : Td) : Nat → Nat
  | 0 => t.size0 | 1 => t.size1 | 2 => t.size2 | _ => t.size3

/-- Stride of dimension d, in units of 16 bytes; the innermost dimension has none. -/
def Td.stride (t : Td) : Nat → Int
  | 1 => t.stride1 | 2 => t.stride2 | 3 => t.stride3 | _ => 0

/-- The format of a descriptor, BF16 where the code is reserved (dispatch refuses those). -/
def Td.format (t : Td) : Fmt := (Fmt.ofCode t.fmt).getD .bf16

/-- All sizes agree (R95, R161). -/
def Td.sameSizes (t u : Td) : Bool :=
  decide (t.size0 = u.size0 ∧ t.size1 = u.size1 ∧ t.size2 = u.size2 ∧ t.size3 = u.size3)

/-- Elements of the tensor. -/
def Td.count (t : Td) : Nat := t.size0 * t.size1 * t.size2 * t.size3

/-- Rows of the tensor. -/
def Td.rows (t : Td) : Nat := t.size1 * t.size2 * t.size3

/-- The outermost dimension of an indirect descriptor (R93). -/
def Td.outer (t : Td) : Option Nat := if t.indexAddr = 0 then none else some t.dims

/-- Bytes of a block group of b MX blocks (R29). -/
def groupBytes (ebits b : Nat) : Nat := roundUp (32 * b * ebits / 8 + b) 32

/-- Bytes of a row of n elements of a format (R28, R29, R90). -/
def rowBytesOf (f : Fmt) (n : Nat) : Nat :=
  if f.isMx then
    let nb := n / 32
    (nb / 32) * groupBytes f.bits 32 + (if nb % 32 = 0 then 0 else groupBytes f.bits (nb % 32))
  else n * f.bits / 8

/-- R of R90. -/
def Td.rowBytes (t : Td) : Nat := rowBytesOf t.format t.size0

/-- The size that the span takes for dimension d: index_bound for the indexed dimension (R93). -/
def Td.spanSize (t : Td) (d : Nat) : Nat := if t.outer = some d then t.indexBound else t.size d

/-- The reach of one dimension below and above the base, in bytes. -/
def Td.reach (t : Td) (d : Nat) : Int := ((t.spanSize d : Int) - 1) * t.stride d * 16

/-- The span from lo to hi of R91, relative to the base. -/
def Td.spanRel (t : Td) : Int × Int :=
  let ds := [1, 2, 3].map t.reach
  ((ds.map (min 0)).sum, (ds.map (max 0)).sum + (t.rowBytes : Int) - 1)

/-- First address and length of the span at a base. -/
def Td.span (t : Td) (base : Nat) : Nat × Nat :=
  let r := t.spanRel
  (((base : Int) + r.1).toNat, (r.2 - r.1 + 1).toNat)

/-- Index tensor bytes (R93). -/
def Td.indexBytes (t : Td) : Nat := if t.indexAddr = 0 then 0 else t.size t.dims * (if t.indexFmt then 4 else 2)

/-- Does a destination alias itself (R92)? -/
def Td.noAlias (t : Td) : Bool :=
  let step := fun (acc : Int × Bool) (d : Nat) =>
    let s : Int := t.stride d * 16
    let a : Int := s.natAbs
    ((a * ((t.size d : Int) - 1) + acc.1), acc.2 && (decide (t.size d ≤ 1) || decide (acc.1 ≤ a)))
  ([1, 2, 3].foldl step ((t.rowBytes : Int), true)).2

/-- How a descriptor is located: in scratchpad by addr, by the slot's DRAM address, or by its own DRAM address (R94). -/
inductive Place where
  | spad | dramSlot | dramOwn
  deriving DecidableEq, Repr

/-- A scratchpad address with bit 31 clear and 32-byte alignment (R76). -/
def spadAligned (a : Nat) : Bool := decide (a < 2 ^ 31) && decide (a % 32 = 0)

/-- The span lies in the die that addr names (R91). That is a static check of a direct descriptor; the table span of an indirect one
is checked at the start, with its window (R93). -/
def Td.inDie (t : Td) : Bool :=
  decide (0 ≤ (bits t.addr 28 0 : Int) + t.spanRel.1) && decide ((bits t.addr 28 0 : Int) + t.spanRel.2 < 2 ^ 29)

/-- The static checks of a descriptor at check 6 of R129 (R76, R89 to R94). -/
def Td.static (t : Td) (p : Place) (dest : Bool) (inDramOk : Bool) : Bool :=
  let f := t.format
  let unused := [1, 2, 3].all fun d => decide (d ≤ t.dims) || (decide (t.size d = 1) && decide (t.stride d = 0))
  decide (t.reserved = 0) && (inDramOk || !t.inDram) && unused &&
    decide ((t.indexAddr ≠ 0) ↔ (t.indexBound ≠ 0)) &&
    (decide (t.indexAddr = 0) || (decide (1 ≤ t.dims) && spadAligned t.indexAddr)) &&
    (!f.isMx || (decide (t.size0 % 32 = 0) && [1, 2, 3].all fun d => decide (t.stride d % 2 = 0))) &&
    (match p with
     | .spad => decide (t.dramHi = 0) && spadAligned t.addr && (decide (t.indexAddr ≠ 0) || t.inDie)
     | .dramSlot => decide (t.addr = 0) && decide (t.dramHi = 0)
     | .dramOwn => decide (t.addr % 32 = 0)) &&
    (!dest || t.noAlias)

/-! ### Places of rows and elements -/

/-- Offset in bytes of the row at positions i1, i2, i3, with `ix` giving the row that a position of the indexed dimension
selects (R90, R93). -/
def Td.rowOff (t : Td) (ix : Nat → Nat) (i1 i2 i3 : Nat) : Int :=
  let p := fun (d i : Nat) => if t.outer = some d then ix i else i
  ((p 1 i1 : Int) * t.stride1 + (p 2 i2 : Int) * t.stride2 + (p 3 i3 : Int) * t.stride3) * 16

/-- A row's address as a number of 44 bits: the checks of R91 to R94 leave no row below 0 or past the top. -/
def addr44 (a : Int) : Nat := (a % 2 ^ 44).toNat

/-- Address of row r in linear order (R38: dimension 1 varies fastest among rows). -/
def Td.rowAddr (t : Td) (ix : Nat → Nat) (base r : Nat) : Nat :=
  addr44 ((base : Int) + t.rowOff ix (r % t.size1) (r / t.size1 % t.size2) (r / (t.size1 * t.size2)))

/-- Entry p of an index tensor. -/
def Mach.indexAt (m : Mach) (a : Nat) (wide : Bool) (p : Nat) : Nat :=
  if wide then leNat (m.spadRead (a + 4 * p) 4) else leNat (m.spadRead (a + 2 * p) 2)

/-- The index function of a descriptor, read from scratchpad. -/
def Mach.indexOf (m : Mach) (t : Td) (p : Nat) : Nat :=
  if t.indexAddr = 0 then p else m.indexAt t.indexAddr t.indexFmt p

/-- Offset of element i's bits in a row: byte offset, bit in that byte; and of its scale byte (R28, R29). -/
def elemPlace (f : Fmt) (size0 i : Nat) : Nat × Nat × Nat :=
  if f.isMx then
    let g := i / 1024
    let j := i % 1024
    let nb := min 32 (size0 / 32 - 32 * g)
    let start := g * groupBytes f.bits 32
    (start + j * f.bits / 8, j * f.bits % 8, start + 32 * nb * f.bits / 8 + j / 32)
  else (i * f.bits / 8, 0, 0)

/-- Value of element i of a row whose bytes `rd` reads. -/
def elemOf (rd : Nat → Nat → Bytes) (f : Fmt) (size0 row i : Nat) : Num :=
  let p := elemPlace f size0 i
  if f.isMx then
    let code := leNat (rd (row + p.1) 2) / 2 ^ p.2.1 % 2 ^ f.bits
    mxScaled (f.decode code) (leNat (rd (row + p.2.2) 1))
  else f.decode (leNat (rd (row + p.1) (f.bits / 8)))

/-- The values of a whole scratchpad tensor in linear order (R38). -/
def Mach.readTensor (m : Mach) (t : Td) : List Num :=
  (List.range t.rows).flatMap fun r =>
    let a := t.rowAddr (m.indexOf t) t.addr r
    (List.range t.size0).map fun i => elemOf m.spadRead t.format t.size0 a i

/-- The bytes of one row of element codes (R28). -/
def packCodes (w : Nat) (codes : List Nat) : Bytes :=
  natLe (codes.length * w / 8) ((codes.zip (List.range codes.length)).foldl (fun n p => n + p.1 * 2 ^ (w * p.2)) 0)

/-- Cut a list into pieces of n. -/
def chunksOf {α : Type} (n : Nat) : Nat → List α → List (List α)
  | 0, _ => []
  | k + 1, l => if l.isEmpty then [] else l.take n :: chunksOf n k (l.drop n)

/-- Convert the values of one row and lay them out; `us` gives the random word of element i of the row. Answers the bytes,
which elements saturated and which were NaNs converted to integers. -/
def convRow (f : Fmt) (us : Nat → Option Nat) (xs : List Num) : Bytes × List Bool × List Bool :=
  if f.isMx then
    let blocks := (chunksOf 32 xs.length xs)
    let qs := (blocks.zip (List.range blocks.length)).map fun p => mxBlock f (fun k => us (32 * p.2 + k)) p.1
    let groups := chunksOf 32 qs.length qs
    let bytes := groups.flatMap fun g =>
      let body := packCodes f.bits (g.flatMap fun q => q.1) ++ g.map fun q => BitVec.ofNat 8 q.2.1
      body ++ List.replicate (groupBytes f.bits g.length - body.length) 0
    (bytes, qs.flatMap fun q => q.2.2, xs.map fun _ => false)
  else
    let cs := (xs.zip (List.range xs.length)).map fun p => f.encode (us p.2) p.1
    (cs.flatMap fun c => natLe (f.bits / 8) c.bits, cs.map Conv.sat, cs.map Conv.nanInt)

/-- Leave every byte of a tensor's rows undefined (R58, R148, R150). -/
def Mach.undefineRows (m : Mach) (t : Td) (dram : Bool) (base : Nat) : Nat → Mach
  | 0 => m
  | k + 1 =>
    let a := t.rowAddr (m.indexOf t) base k
    let m' := m.undefineRows t dram base k
    if dram then m'.dramUndefine a t.rowBytes else m'.spadUndefine a t.rowBytes

/-! ### Checks at a slot's start (R91, R93, R97) -/

/-- The span of a scratchpad descriptor, the table span where it is indirect, lies in its die and in the context's window (R91, R93). -/
def Mach.spanInWindow (m : Mach) (c : CtxId) (t : Td) : Bool :=
  t.inDie && m.spadInWindow c (t.span t.addr).1 (t.span t.addr).2

/-- The index tensor of a descriptor lies in the context's window (R93). -/
def Mach.indexInWindow (m : Mach) (c : CtxId) (t : Td) : Bool :=
  decide (t.indexAddr = 0) || m.spadInWindow c t.indexAddr t.indexBytes

/-- The first index position among some whose value is not below the bound (R93). -/
def Mach.badIndexAmong (m : Mach) (t : Td) (used : Nat → Bool) : Option Nat :=
  if t.indexAddr = 0 then none
  else (List.range (t.size t.dims)).find? fun p => used p && decide (t.indexBound ≤ m.indexOf t p)

/-- The first index position whose value is not below the bound. -/
def Mach.badIndex (m : Mach) (t : Td) : Option Nat := m.badIndexAmong t fun _ => true

/-- The bytes of an index tensor. -/
def Td.indexRange (t : Td) : List (Nat × Nat) := if t.indexAddr = 0 then [] else [(t.indexAddr, t.indexBytes)]

/-- Reading index tensors for a context: what ECC corrects, or the error that faults the slot, counted (R80). -/
def Mach.readIndices (m : Mach) (c : CtxId) (ts : List Td) : Mach :=
  let rs := ts.flatMap Td.indexRange
  match m.badSpads rs with
  | some w => m.spadUe w (some c)
  | none => m.readSpads rs (some c)

/-! ### Slot layout (R116, R120 to R128) -/

/-- Sizes of the slots by mask bit (R116). -/
def slotSize : Nat → Nat
  | 0 => 16 | 1 => 80 | 2 => 112 | 3 => 128 | 4 => 64 | 5 => 48 | 6 => 32 | _ => 64

/-- A slot as a number, for its bit fields. -/
def slotNum (b : Bytes) : Nat := leNat b

end Sys2Proof.Machine
end

