-- ==== Sys2Proof/Machine/Slots.lean ====
section
/-! DEFINITION. Long words and slots (R115 to R128): framing, fields, and the dispatch checks of R129. -/

namespace Sys2Proof.Machine

open Sys2Proof

/-! ### Words -/

/-- A framed long word: header, slots by mask bit, all bytes. -/
structure Word where
  hdr : Nat
  slots : List (Nat × Bytes)
  bytes : Bytes
  deriving DecidableEq, Repr

/-- word_seq of a word (R115). -/
def Word.seq (w : Word) : BitVec 16 := BitVec.ofNat 16 (bits w.hdr 47 32)

/-- The slot at mask bit k. -/
def Word.slot (w : Word) (k : Nat) : Option Bytes := (w.slots.find? fun p => decide (p.1 = k)).map Prod.snd

/-- Mask bits of a header, ascending. -/
def maskBits (hdr : Nat) : List Nat := (List.range 8).filter fun k => bit hdr (56 + k)

/-- Cut the slots of a word from the bytes behind its header (R116). -/
def cutSlots : List Nat → Bytes → List (Nat × Bytes)
  | [], _ => []
  | k :: ks, b => (k, b.take (slotSize k)) :: cutSlots ks (b.drop (slotSize k))

/-- Length in bytes that a header's mask demands (R116). -/
def maskLength (hdr : Nat) : Nat := 8 + ((maskBits hdr).map slotSize).sum

/-- Frame the word at the head of a SEND (R129): its bytes and the rest, or none. -/
def frame (send : Bytes) : Option (Bytes × Bytes) :=
  if send.length < 8 then none
  else
    let n := 8 * bits (getLe send 0 8) 55 48
    if n = 0 ∨ send.length < n then none else some (send.take n, send.drop n)

/-- The word whose bytes these are. -/
def wordOf (b : Bytes) : Word :=
  let hdr := getLe b 0 8
  ⟨hdr, cutSlots (maskBits hdr) (b.drop 8), b⟩

/-! ### SYNC (R120) -/

/-- Waits of a SYNC slot: engine, token ID. -/
def syncWaits (n : Nat) : List (Nat × Nat) :=
  ((List.range 4).filter fun k => bit n (16 * k + 15)).map fun k => (bits n (16 * k + 14) (16 * k + 12), bits n (16 * k + 11) (16 * k))

/-- emit_targets of a SYNC slot. -/
def syncTargets (n : Nat) : Nat := bits n 114 108

/-- emit_id of a SYNC slot. -/
def syncEmitId (n : Nat) : Nat := bits n 107 96

/-- user_tag of a SYNC slot. -/
def syncTag (n : Nat) : Nat := bits n 95 64

/-! ### MOVE (R121, R122, R94) -/

/-- MOVE types. -/
inductive MoveTy where
  | load | store | copy | dcopy | put | get | hostIn | hostOut
  deriving DecidableEq, Repr

def moveTyOf (n : Nat) : Option MoveTy :=
  [MoveTy.load, .store, .copy, .dcopy, .put, .get, .hostIn, .hostOut][n]?

/-- A MOVE slot. -/
structure MoveSlot where
  ty : Option MoveTy
  acc : Bool
  fence : Bool
  far : Nat
  dram : Nat
  dst : Td
  src : Td
  remoteTargets : Nat
  remoteId : Nat
  reserved : Nat
  deriving DecidableEq, Repr

def parseMove (b : Bytes) : MoveSlot :=
  let n := slotNum b
  { ty := moveTyOf (bits n 639 636), acc := bit n 635, fence := bit n 634, far := bits n 633 620,
    dram := bits n 619 576, dst := parseTd (bits n 575 320), src := parseTd (bits n 319 64),
    remoteTargets := bits n 18 13, remoteId := bits n 12 1, reserved := bits n 0 0 }

/-- Where an endpoint lies (R94). -/
inductive EndAt where
  | spad | dram | remoteSpad | remoteDram | host
  deriving DecidableEq, Repr

/-- Is the endpoint in DRAM, of this or of the remote module? -/
def EndAt.isDram : EndAt → Bool
  | .dram | .remoteDram => true
  | _ => false

/-- Source and destination places of a MOVE slot. -/
def MoveSlot.ends (s : MoveSlot) : EndAt × EndAt :=
  let loc := fun (t : Td) => if t.inDram then EndAt.dram else .spad
  let rem := fun (t : Td) => if t.inDram then EndAt.remoteDram else .remoteSpad
  match s.ty with
  | some .load => (.dram, .spad)
  | some .store => (.spad, .dram)
  | some .copy => (.spad, .spad)
  | some .dcopy => (.dram, .dram)
  | some .put => (loc s.src, rem s.dst)
  | some .get => (rem s.src, .spad)
  | some .hostIn => (.host, loc s.dst)
  | some .hostOut => (loc s.src, .host)
  | none => (.spad, .spad)

/-- Both endpoints lie in DRAM: DCOPY, or a PUT from DRAM to remote DRAM (R94). -/
def MoveSlot.twoDram (s : MoveSlot) : Bool := s.ends.1.isDram && s.ends.2.isDram

/-- Base address of the source. -/
def MoveSlot.srcBase (s : MoveSlot) : Nat := if s.ends.1.isDram then s.dram else s.src.addr

/-- Base address of the destination. -/
def MoveSlot.dstBase (s : MoveSlot) : Nat :=
  if s.ends.2.isDram then (if s.twoDram then s.dst.addr + s.dst.dramHi * 2 ^ 32 else s.dram) else s.dst.addr

/-- Check 4 of a MOVE slot. -/
def MoveSlot.check4 (s : MoveSlot) : Bool :=
  match s.ty with
  | none => false
  | some t =>
    decide (s.reserved = 0) && (decide (s.remoteTargets = 0) || decide (t = .put)) &&
    (match t with
     | .put | .get => true
     | .hostIn | .hostOut => decide (s.far < 15)
     | _ => decide (s.far = 0)) &&
    (decide (s.dram = 0) || s.ends.1.isDram || s.ends.2.isDram) &&
    (!s.acc || ((decide (t = .load) || decide (t = .copy) || decide (t = .get) || decide (t = .hostIn)) && decide (s.ends.2 = .spad)))

/-- The format code of a descriptor may stand in a slot: known and no wire format (check 5 of R129). -/
def Td.codeOk (t : Td) : Bool :=
  match Fmt.ofCode t.fmt with
  | some f => !f.isWire
  | none => false

/-- A descriptor that is not all zero has a format that may stand in a slot. -/
def Td.codeOk0 (t : Td) : Bool := decide (t.raw = 0) || t.codeOk

/-- Check 5 of a MOVE slot (R26, R27, R98). DESIGN CHOICE: an all-zero descriptor that a MOVE uses is not examined either, as R129 has
it; its reserved format code 0 is then taken as BF16 (log 66). -/
def MoveSlot.check5 (s : MoveSlot) : Bool :=
  s.src.codeOk0 && s.dst.codeOk0 && (!s.acc || decide (s.dst.format = .fp32) || decide (s.dst.format = .int32))

/-- The host form of R122. -/
def Td.hostForm (t : Td) : Bool :=
  !t.indexFmt && decide (t.stride1 = 0 ∧ t.stride2 = 0 ∧ t.stride3 = 0) && decide (t.reserved = 0) && !t.inDram &&
    decide (t.dramHi = 0) && [1, 2, 3].all fun d => decide (d ≤ t.dims) || decide (t.size d = 1)

/-- Static checks of one endpoint. -/
def MoveSlot.endOk (s : MoveSlot) (dest : Bool) : Bool :=
  let t := if dest then s.dst else s.src
  let e := if dest then s.ends.2 else s.ends.1
  let openBit := match s.ty with
    | some .put => true
    | some .get => !dest
    | some .hostIn => dest
    | some .hostOut => !dest
    | _ => false
  match e with
  | .host => t.hostForm
  | .spad | .remoteSpad => t.static .spad dest openBit
  | .dram | .remoteDram =>
    t.static (if dest && s.twoDram then .dramOwn else .dramSlot) dest openBit &&
      decide ((if dest then s.dstBase else s.srcBase) % 32 = 0)

/-- Check 6 of a MOVE slot (R89 to R95). -/
def MoveSlot.check6 (s : MoveSlot) : Bool :=
  s.endOk false && s.endOk true && decide (s.src.fmt = s.dst.fmt) && s.src.sameSizes s.dst

/-! ### ARRAY (R123, R53 to R62) -/

/-- An ARRAY slot. -/
structure ArraySlot where
  tag : Nat
  partialBase : Nat
  a : Td
  b : Td
  c : Td
  passes : Nat
  ta : Bool
  tb : Bool
  fp64 : Bool
  accum : Bool
  takeup : Bool
  split : Bool
  writeDest : Bool
  paired : Bool
  stoch : Bool
  frozen : Bool
  reserved : Nat
  deriving DecidableEq, Repr

def parseArray (b : Bytes) : ArraySlot :=
  let n := slotNum b
  { tag := bits n 895 864, partialBase := bits n 863 832, c := parseTd (bits n 831 576), b := parseTd (bits n 575 320),
    a := parseTd (bits n 319 64), passes := bits n 18 17, ta := bit n 16, tb := bit n 15, fp64 := bit n 14,
    accum := bit n 13, takeup := bit n 12, split := bit n 11, writeDest := bit n 10, paired := bit n 9, stoch := bit n 8,
    frozen := bit n 7, reserved := bits n 6 0 }

/-- M: rows of op(A) (R53). -/
def ArraySlot.rowsM (s : ArraySlot) : Nat := if s.ta then s.a.size0 else s.a.size1

/-- K: columns of op(A). -/
def ArraySlot.depthK (s : ArraySlot) : Nat := if s.ta then s.a.size1 else s.a.size0

/-- N: columns of op(B). -/
def ArraySlot.colsN (s : ArraySlot) : Nat := if s.tb then s.b.size1 else s.b.size0

/-- K as op(B) has it. -/
def ArraySlot.depthB (s : ArraySlot) : Nat := if s.tb then s.b.size0 else s.b.size1

/-- Batch elements. -/
def ArraySlot.batch (s : ArraySlot) : Nat := s.a.size2 * s.a.size3

/-- INT8 products (R67). -/
def ArraySlot.ints (s : ArraySlot) : Bool := decide (s.a.format = .int8)

/-- The partial type of R67, as a format. -/
def ArraySlot.partialFmt (s : ArraySlot) : Fmt := if s.ints then .int64 else if s.fp64 then .fp64 else .fp32

/-- Bytes of a partial (R58). -/
def ArraySlot.partialW (s : ArraySlot) : Nat := s.partialFmt.bits / 8

/-- Segment length S (R62). -/
def ArraySlot.segLen (s : ArraySlot) : Nat :=
  let w := max s.a.format.bits s.b.format.bits
  if 16 ≤ w then 2304 else if 6 ≤ w then 4608 else 9216

/-- n_seg. -/
def ArraySlot.nSeg (s : ArraySlot) : Nat := cdiv s.depthK s.segLen

/-- Segment pairs. -/
def ArraySlot.nPair (s : ArraySlot) : Nat := cdiv s.nSeg 2

/-- Columns of the chunks of one side within N: side 0 the even chunks, side 1 the odd (R54, R58). -/
def sideCols (n side : Nat) : Nat :=
  (((List.range (cdiv n 16)).filter fun h => decide (h % 2 = side)).map fun h => min 16 (n - 16 * h)).sum

/-- Partial regions, where there are any: address and length on C2 and C3 (R58). -/
def ArraySlot.partials (s : ArraySlot) : List (Nat × Nat) :=
  if s.nPair ≤ 1 then []
  else [(2, 0), (3, 1)].filterMap fun p =>
    let n := s.rowsM * sideCols s.colsN p.2 * s.partialW
    if n = 0 then none else some (p.1 * 2 ^ 29 + s.partialBase, n)

/-- Check 4 of an ARRAY slot (R123). -/
def ArraySlot.check4 (s : ArraySlot) : Bool :=
  decide (s.reserved = 0) && decide (s.passes ≠ 3) && decide (s.partialBase < 2 ^ 29) && (s.takeup || s.writeDest) &&
    (s.writeDest || (!s.accum && decide (s.c.addr = 0 ∧ s.c.stride1 = 0 ∧ s.c.stride2 = 0 ∧ s.c.stride3 = 0 ∧
      s.c.indexAddr = 0 ∧ s.c.indexBound = 0) && !s.c.indexFmt))

/-- Formats of Loom operands (R27). -/
def Fmt.loomIn : Fmt → Bool
  | .bf16 | .fp16 | .fp32 | .e4m3 | .e5m2 | .int8 => true
  | f => f.isMx

/-- Floating-point formats of Loom outputs (R68). -/
def Fmt.loomOut : Fmt → Bool
  | .bf16 | .fp16 | .fp32 | .e4m3 | .e5m2 => true
  | _ => false

/-- Formats that may be rounded stochastically (R37). DESIGN CHOICE: the E4M3 and E5M2 that R37 names are taken as the scalar formats
0x04 and 0x05 alone; an MX destination with ROUNDING 1 is refused, though R44 speaks of converting MX elements so (log 64). -/
def Fmt.stochOk : Fmt → Bool
  | .bf16 | .e4m3 | .e5m2 => true
  | _ => false

/-- FP32 or FP16. -/
def Fmt.wide : Fmt → Bool
  | .fp16 | .fp32 => true
  | _ => false

/-- Check 5 of an ARRAY slot (R26, R27, R37, R43, R68, R123). -/
def ArraySlot.check5 (s : ArraySlot) : Bool :=
  s.a.codeOk && s.b.codeOk && s.c.codeOk &&
  (let fa := s.a.format
   let fb := s.b.format
   let fc := s.c.format
   fa.loomIn && fb.loomIn && (decide (fa = .int8) == decide (fb = .int8)) &&
   (decide (s.passes = 0) || fa.wide || fb.wide) &&
   (if s.writeDest then
      (if s.ints then decide (fc = .int32) else fc.loomOut) && (!s.accum || s.ints || decide (fc = .fp32))
    else decide (fc = s.partialFmt)) &&
   (!s.stoch || (s.writeDest && fc.stochOk)))

/-- Two byte ranges meet. -/
def meets (x y : Nat × Nat) : Bool := decide (x.1 < y.1 + y.2) && decide (y.1 < x.1 + x.2)

/-- A scratchpad range as it lies on die d (R55). -/
def onDie (d : Nat) (r : Nat × Nat) : Nat × Nat := (d * 2 ^ 29 + r.1 % 2 ^ 29, r.2)

/-- Span and index tensor of a scratchpad operand. -/
def Td.ranges (t : Td) : List (Nat × Nat) :=
  t.span t.addr :: t.indexRange

/-- Ranges an ARRAY slot reads, as they lie on each die (R59). DESIGN CHOICE: the index tensors that R59 compares with what is written
are taken as those of A and B, as its list of ranges has them; the destination's own index tensor is not compared (log 65). -/
def ArraySlot.reads (s : ArraySlot) : List (Nat × Nat) :=
  let adies := if s.paired then [0, 2] else [0, 1, 2, 3]
  (adies.flatMap fun d => s.a.ranges.map (onDie d)) ++ ([0, 1, 2, 3].flatMap fun d => s.b.ranges.map (onDie d))

/-- Ranges an ARRAY slot writes. -/
def ArraySlot.writes (s : ArraySlot) : List (Nat × Nat) :=
  (if s.writeDest then [s.c.span s.c.addr] else []) ++ s.partials

/-- No two ranges of a list meet. -/
def noneMeet : List (Nat × Nat) → Bool
  | [] => true
  | x :: rest => (rest.all fun y => !meets x y) && noneMeet rest

/-- Check 6 of an ARRAY slot (R53, R58, R59, R76, R89 to R92). -/
def ArraySlot.check6 (s : ArraySlot) : Bool :=
  s.a.static .spad false false && s.b.static .spad false false && s.c.static .spad s.writeDest false &&
  decide (s.depthK = s.depthB ∧ s.c.size0 = s.colsN ∧ s.c.size1 = s.rowsM) &&
  decide (s.a.size2 = s.b.size2 ∧ s.a.size2 = s.c.size2 ∧ s.a.size3 = s.b.size3 ∧ s.a.size3 = s.c.size3) &&
  decide (s.partialBase % 32 = 0) &&
  (s.writes.all fun w => s.reads.all fun r => !meets w r) && noneMeet s.writes

/-! ### VECTOR (R124, R162 to R170) -/

/-- Shapes of R170. -/
inductive VShape where
  | elementwise | perRow | rowNorm | perColumn | single | optimizer | clip
  deriving DecidableEq, Repr

/-- The FP64 column of R170, with the integer opcodes apart. -/
inductive VWide where
  | yes | no | src0 | integer
  deriving DecidableEq, Repr

/-- One opcode of R170: code, shape, take-up and FP64 columns, and the operands it uses: src1, auxiliary tensor, i0, i1. -/
structure VOp where
  code : Nat
  shape : VShape
  take : Bool
  wide : VWide
  src1 : Bool := false
  aux : Bool := false
  i0 : Bool := false
  i1 : Bool := false
  deriving DecidableEq, Repr

/-- The opcode table of R170. -/
def vOps : List VOp :=
  [⟨0x01, .elementwise, true, .yes, false, false, false, false⟩,
   ⟨0x02, .elementwise, true, .yes, true, false, false, false⟩,
   ⟨0x03, .elementwise, true, .yes, true, false, false, false⟩,
   ⟨0x04, .elementwise, true, .yes, true, false, false, false⟩,
   ⟨0x05, .elementwise, true, .yes, true, false, false, false⟩,
   ⟨0x06, .elementwise, true, .yes, true, true, false, false⟩,
   ⟨0x07, .elementwise, true, .yes, true, false, true, true⟩,
   ⟨0x08, .elementwise, true, .yes, true, false, false, false⟩,
   ⟨0x09, .elementwise, true, .yes, true, false, false, false⟩,
   ⟨0x0A, .elementwise, true, .yes, false, false, true, true⟩,
   ⟨0x0B, .elementwise, true, .yes, false, false, false, false⟩,
   ⟨0x0C, .elementwise, true, .no, false, false, false, false⟩,
   ⟨0x0D, .elementwise, true, .no, false, false, false, false⟩,
   ⟨0x0E, .elementwise, true, .no, false, false, false, false⟩,
   ⟨0x0F, .elementwise, true, .no, true, false, false, false⟩,
   ⟨0x10, .elementwise, true, .no, true, false, false, false⟩,
   ⟨0x11, .elementwise, true, .no, true, false, false, false⟩,
   ⟨0x18, .elementwise, true, .no, false, false, false, false⟩,
   ⟨0x19, .elementwise, true, .no, false, false, false, false⟩,
   ⟨0x1A, .elementwise, true, .no, false, false, false, false⟩,
   ⟨0x1B, .elementwise, true, .no, false, false, false, false⟩,
   ⟨0x1C, .elementwise, true, .no, false, false, false, false⟩,
   ⟨0x1D, .elementwise, true, .no, false, false, false, false⟩,
   ⟨0x1E, .elementwise, true, .no, false, false, false, false⟩,
   ⟨0x1F, .elementwise, true, .no, false, false, false, false⟩,
   ⟨0x20, .rowNorm, true, .no, false, true, true, false⟩,
   ⟨0x21, .rowNorm, true, .no, false, true, true, false⟩,
   ⟨0x22, .rowNorm, true, .no, false, true, true, false⟩,
   ⟨0x23, .perRow, true, .no, true, false, false, false⟩,
   ⟨0x24, .elementwise, true, .no, true, true, true, false⟩,
   ⟨0x25, .rowNorm, true, .no, true, true, true, false⟩,
   ⟨0x26, .rowNorm, true, .no, true, true, true, false⟩,
   ⟨0x27, .perRow, true, .yes, false, false, false, false⟩,
   ⟨0x28, .perRow, true, .yes, false, false, false, false⟩,
   ⟨0x30, .perColumn, true, .yes, false, false, true, false⟩,
   ⟨0x31, .single, true, .yes, false, false, false, false⟩,
   ⟨0x40, .optimizer, false, .no, true, true, false, false⟩,
   ⟨0x41, .optimizer, false, .no, true, true, false, false⟩,
   ⟨0x42, .clip, false, .src0, true, false, false, false⟩,
   ⟨0x48, .elementwise, true, .no, false, false, true, false⟩,
   ⟨0x50, .elementwise, false, .integer, true, false, false, false⟩,
   ⟨0x51, .elementwise, false, .integer, true, false, false, false⟩,
   ⟨0x52, .elementwise, false, .integer, true, false, false, false⟩]

/-- The row of an opcode. -/
def vOp? (code : Nat) : Option VOp := vOps.find? fun o => decide (o.code = code)

/-- A VECTOR slot. -/
structure VecSlot where
  imm2 : Nat
  imm1 : Nat
  imm0 : Nat
  keep : Nat
  tag : Nat
  aux : Nat
  dst : Td
  src1 : Td
  src0 : Td
  opcode : Nat
  takeup : Bool
  stoch : Bool
  dies : Nat
  reserved : Nat
  deriving DecidableEq, Repr

def parseVec (b : Bytes) : VecSlot :=
  let n := slotNum b
  { imm2 := bits n 1023 992, imm1 := bits n 991 960, imm0 := bits n 959 928, keep := bits n 927 896,
    tag := bits n 895 864, aux := bits n 863 832, dst := parseTd (bits n 831 576), src1 := parseTd (bits n 575 320),
    src0 := parseTd (bits n 319 64), opcode := bits n 18 11, takeup := bit n 10, stoch := bit n 9, dies := bits n 8 5,
    reserved := bits n 4 0 }

/-- The FP32 immediates of 0.0 and 1.0 that R172 allows. -/
def storeSel (n : Nat) : Bool := decide (n = 0) || decide (n = 0x3F800000)

/-- Check 4 of a VECTOR slot (R124, R163, R169, R172, R173). -/
def VecSlot.check4 (s : VecSlot) : Bool :=
  match vOp? s.opcode with
  | none => false
  | some o =>
    decide (s.reserved = 0) && decide (s.dies ≠ 0) && (o.src1 || decide (s.src1.raw = 0)) &&
    (o.aux || decide (s.aux = 0)) && (o.i0 || decide (s.imm0 = 0)) && (o.i1 || decide (s.imm1 = 0)) &&
    decide (s.imm2 = 0) && (decide (s.opcode = 0x48) || decide (s.keep = 0)) &&
    (!(decide (s.opcode = 0x25) || decide (s.opcode = 0x26) || decide (s.opcode = 0x30)) || storeSel s.imm0) &&
    (!(decide (s.opcode = 0x48)) || !s.stoch) &&
    (!s.takeup || (o.take && decide (s.src0.addr = 0 ∧ s.src0.stride1 = 0 ∧ s.src0.stride2 = 0 ∧ s.src0.stride3 = 0 ∧
      s.src0.indexAddr = 0 ∧ s.src0.indexBound = 0) && !s.src0.indexFmt))

/-- ADAM or SGDM without a copy: an all-zero dst_td (R176). -/
def VecSlot.noDst (s : VecSlot) : Bool :=
  (decide (s.opcode = 0x40) || decide (s.opcode = 0x41)) && decide (s.dst.raw = 0)

/-- The descriptors a slot uses. -/
def VecSlot.used (s : VecSlot) (o : VOp) : List Td :=
  [s.src0] ++ (if o.src1 then [s.src1] else []) ++ (if s.noDst then [] else [s.dst])

/-- Check 5 of a VECTOR slot (R26, R27, R165, R169, R175, R176, R180). -/
def VecSlot.check5 (s : VecSlot) : Bool :=
  match vOp? s.opcode with
  | none => false
  | some o =>
    let ts := s.used o
    let idx := fun (f : Fmt) => decide (f = .u16) || decide (f = .u32)
    (ts.all Td.codeOk) &&
    (if o.wide = .integer then ts.all fun t => t.format.isInt
     else
       (decide (s.opcode = 0x01) || decide (s.opcode = 0x0B) || ts.all fun t => !idx t.format) &&
       (match o.wide with
        | .yes => true
        | .src0 => (ts.drop 1).all fun t => decide (t.format ≠ .fp64)
        | _ => ts.all fun t => decide (t.format ≠ .fp64))) &&
    (!s.stoch || (!s.noDst && s.dst.format.stochOk)) &&
    (match o.shape with
     | .optimizer => (decide (s.src0.format = .fp32) || decide (s.src0.format = .bf16)) && decide (s.src1.format = .fp32)
     | .clip => decide (s.src0.format = .fp64) && decide (s.src1.format = .fp32) && decide (s.dst.format = .fp32)
     | _ => true)

/-- Every size of a source equals the destination's or is 1 (R162). -/
def Td.fits (t d : Td) : Bool := (List.range 4).all fun k => decide (t.size k = d.size k) || decide (t.size k = 1)

/-- Two direct descriptors that name the same place in the same way (R164). -/
def Td.coincide (t u : Td) : Bool :=
  decide (t.addr = u.addr ∧ t.fmt = u.fmt ∧ t.stride1 = u.stride1 ∧ t.stride2 = u.stride2 ∧ t.stride3 = u.stride3 ∧
    t.indexAddr = 0 ∧ u.indexAddr = 0) && t.sameSizes u

/-- A descriptor of the hyperparameter block (R175). -/
def Td.isHyper (t : Td) : Bool := decide (t.dims = 0 ∧ t.size0 = 16 ∧ t.indexAddr = 0)

/-- a_x of R163. -/
def auxPad (x : Nat) : Nat := roundUp (4 * x) 32

/-- Bytes of the auxiliary tensor (R163). -/
def VecSlot.auxLen (s : VecSlot) : Nat :=
  let n := s.src0.size0
  let r := s.src0.rows
  let e := s.src0.count
  match s.opcode with
  | 0x06 => 4 * s.dst.count
  | 0x20 => if s.aux = 0 then 0 else 4 * r
  | 0x24 => 4 * r
  | 0x21 | 0x25 => 4 * auxPad n + 8 * r
  | 0x22 | 0x26 => 2 * auxPad n + 4 * r
  | 0x40 => 2 * auxPad e + 4 * e
  | 0x41 => auxPad e + 4 * e
  | _ => 0

/-- The auxiliary tensor's range, if the slot has one. -/
def VecSlot.auxRange (s : VecSlot) : List (Nat × Nat) := if s.auxLen = 0 then [] else [(s.aux, s.auxLen)]

/-- Sizes demanded by the shape of the opcode: only elementwise opcodes broadcast (R162, R170, R176, R180). -/
def VecSlot.shapeOk (s : VecSlot) (o : VOp) : Bool :=
  match o.shape with
  | .elementwise => s.src0.fits s.dst && (!o.src1 || s.src1.fits s.dst)
  | .perRow => decide (s.dst.size0 = 1 ∧ s.dst.size1 = s.src0.size1 ∧ s.dst.size2 = s.src0.size2 ∧ s.dst.size3 = s.src0.size3) &&
      (!o.src1 || s.src1.sameSizes s.src0)
  | .rowNorm => s.dst.sameSizes s.src0 && (!o.src1 || s.src1.sameSizes s.src0)
  | .perColumn => decide (s.dst.dims = 0 ∧ s.dst.size0 = s.src0.size0)
  | .single => decide (s.dst.count = 1)
  | .optimizer => s.src1.isHyper && (s.noDst || decide (s.dst.count = s.src0.count))
  | .clip => decide (s.src0.count = 1) && s.src1.isHyper && s.dst.coincide s.src1

/-- The overlap check of R164. -/
def VecSlot.overlapOk (s : VecSlot) (o : VOp) : Bool :=
  let srcs := (if s.takeup then [] else [s.src0]) ++ (if o.src1 then [s.src1] else [])
  let aux := s.auxRange
  let dst := if s.noDst then [] else [s.dst.span s.dst.addr]
  let may := fun (t : Td) => match o.shape with
    | .elementwise => s.dst.coincide t
    | .clip => decide (t.raw = s.src1.raw) && s.dst.coincide t
    | _ => false
  (dst.all fun d =>
    (srcs.all fun t => (may t || !meets d (t.span t.addr)) && (decide (t.indexAddr = 0) || !meets d (t.indexAddr, t.indexBytes))) &&
      aux.all fun a => !meets d a) &&
  aux.all fun a => srcs.all fun t => t.ranges.all fun r => !meets a r

/-- Check 6 of a VECTOR slot (R76, R89 to R92, R162 to R164). -/
def VecSlot.check6 (s : VecSlot) : Bool :=
  match vOp? s.opcode with
  | none => false
  | some o =>
    s.src0.static .spad false false && (!o.src1 || s.src1.static .spad false false) &&
    (s.noDst || (s.dst.static .spad true false && decide (s.dst.indexAddr = 0))) && s.shapeOk o &&
    (decide (s.auxLen = 0) || (spadAligned s.aux)) && s.overlapOk o

/-! ### SHUTTLE (R125, R185) -/

/-- A SHUTTLE slot. -/
structure ShutSlot where
  normAddr : Nat
  residual : Nat
  norm : Bool
  root : Nat
  seq : Nat
  op : Nat
  group : Nat
  dstFmt : Nat
  dstAddr : Nat
  src : Td
  reserved : Nat
  deriving DecidableEq, Repr

def parseShut (b : Bytes) : ShutSlot :=
  let n := slotNum b
  { normAddr := bits n 487 456, residual := bits n 455 424, norm := bit n 422, root := bits n 421 408, seq := bits n 407 376,
    op := bits n 375 372, group := bits n 371 360, dstFmt := bits n 357 352, dstAddr := bits n 351 320,
    src := parseTd (bits n 319 64),
    reserved := bits n 511 488 + bits n 423 423 + bits n 359 358 + bits n 18 0 }

/-- The reducing operations 0, 1 and 4. -/
def ShutSlot.reduces (s : ShutSlot) : Bool := decide (s.op = 0) || decide (s.op = 1) || decide (s.op = 4)

/-- Destination format, BF16 where the code is reserved (dispatch refuses those). -/
def ShutSlot.dstFormat (s : ShutSlot) : Fmt := (Fmt.ofCode s.dstFmt).getD .bf16

/-- Check 4 of a SHUTTLE slot. -/
def ShutSlot.check4 (s : ShutSlot) : Bool :=
  decide (s.reserved = 0) && decide (s.op ≤ 6) && (decide (s.root = 0) || decide (s.op = 3) || decide (s.op = 4)) &&
    (decide (s.op ≠ 5) || (decide (s.src.raw = 0) && decide (s.dstAddr = 0))) && (s.norm || decide (s.normAddr = 0))

/-- Sources of reducing collectives (R185). -/
def Fmt.reduceIn : Fmt → Bool
  | .bf16 | .fp16 | .fp32 | .int32 | .int64 => true
  | _ => false

/-- Check 5 of a SHUTTLE slot (R27, R185). -/
def ShutSlot.check5 (s : ShutSlot) : Bool :=
  if s.op = 5 then true
  else s.src.codeOk && (match Fmt.ofCode s.dstFmt with
    | none => false
    | some d => !d.isWire &&
      (if s.reduces then s.src.format.reduceIn && (decide (d = .fp32) || decide (d = .bf16))
       else if s.op = 6 then decide (s.src.format = .fp64) && decide (d = .fp64)
       else decide (s.src.format = d) && decide (d ≠ .fp64) && decide (d ≠ .u16) && decide (d ≠ .u32)))

/-- Check 6 of a SHUTTLE slot (R76, R89 to R91, R125). -/
def ShutSlot.check6 (s : ShutSlot) : Bool :=
  decide (s.normAddr < 2 ^ 31) && decide (s.normAddr % 8 = 0) &&
    (decide (s.op = 5) || (s.src.static .spad false false && spadAligned s.dstAddr &&
      (decide (s.op ≠ 6) || decide (s.src.count = 1)) && spadAligned s.residual))

/-! ### VAULT, AUDIT, CONF (R126 to R128) -/

/-- A VAULT slot. -/
structure VaultSlot where
  slice : Nat
  generation : Nat
  tag : Nat
  length : Nat
  dram : Nat
  op : Nat
  reserved : Nat
  deriving DecidableEq, Repr

def parseVault (b : Bytes) : VaultSlot :=
  let n := slotNum b
  { slice := bits n 347 220, generation := bits n 219 188, tag := bits n 187 156, length := bits n 155 116,
    dram := bits n 115 72, op := bits n 67 64, reserved := bits n 383 348 + bits n 71 68 + bits n 18 0 }

/-- Check 4 of a VAULT slot. -/
def VaultSlot.check4 (s : VaultSlot) : Bool :=
  decide (s.reserved = 0) && decide (s.op < 3) &&
    (decide (s.op = 2) || (decide (s.length % 4096 = 0) && decide (s.dram % 4096 = 0)))

/-- An AUDIT slot. -/
structure AuditSlot where
  tag : Nat
  length : Nat
  addr : Nat
  withWords : Bool
  dram : Bool
  op : Nat
  reserved : Nat
  deriving DecidableEq, Repr

def parseAudit (b : Bytes) : AuditSlot :=
  let n := slotNum b
  { tag := bits n 187 156, length := bits n 155 116, addr := bits n 115 72, withWords := bit n 69, dram := bit n 68,
    op := bits n 67 64, reserved := bits n 255 188 + bits n 71 70 + bits n 18 0 }

/-- Check 4 of an AUDIT slot (R127, R333). -/
def AuditSlot.check4 (s : AuditSlot) : Bool :=
  decide (s.reserved = 0) && decide (s.op < 3) && (decide (s.op = 1) || !s.withWords) &&
    (decide (s.op = 0) || s.dram || decide (s.addr < 2 ^ 32)) &&
    (decide (s.op ≠ 2) || (decide (s.length = 2048) && !s.dram))

/-- Check 6 of an AUDIT slot: a scratchpad address has bit 31 clear (R76). -/
def AuditSlot.check6 (s : AuditSlot) : Bool := decide (s.op = 0) || s.dram || decide (s.addr < 2 ^ 31)

/-- A CONF slot. -/
structure ConfSlot where
  op : Nat
  bobbinLog2 : Nat
  pool : Nat
  ringAddr : Nat
  count : Nat
  proto : Nat
  epoch : Nat
  wire : Nat
  level : Nat
  group : Nat
  value : Nat
  waits : Bool
  reserved : Nat
  deriving DecidableEq, Repr

def parseConf (b : Bytes) : ConfSlot :=
  let n := slotNum b
  let op := bits n 67 64
  let top := match op with
    | 0 => bits n 511 172
    | 1 => bits n 511 84
    | 2 | 3 => bits n 511 136
    | _ => bits n 511 72
  { op := op, bobbinLog2 := bits n 171 168, pool := bits n 167 162, ringAddr := bits n 161 130, count := bits n 129 116 + 1,
    proto := bits n 115 108, epoch := bits n 107 92, wire := bits n 91 86, level := bits n 85 84, group := bits n 83 72,
    value := bits n 135 72, waits := bit n 31 || bit n 44, reserved := bits n 71 68 + bits n 18 0 + top }

/-- Check 4 of a CONF slot. -/
def ConfSlot.check4 (s : ConfSlot) : Bool :=
  decide (s.reserved = 0) && decide (s.op < 4) && (decide (s.op < 2) || !s.waits) &&
    (decide (s.op ≠ 0) || decide (s.bobbinLog2 ≤ 6))

/-- Check 5 of a CONF slot. -/
def ConfSlot.check5 (s : ConfSlot) : Bool :=
  decide (s.op ≠ 0) || decide (s.wire = 0) || decide (s.wire = 0x11) || decide (s.wire = 0x12)

/-- Check 6 of a CONF slot (R76). -/
def ConfSlot.check6 (s : ConfSlot) : Bool := decide (s.op ≠ 0) || decide (s.ringAddr < 2 ^ 31)

/-! ### The checks of R129 -/

/-- Check 3 for one slot: its engine, its emit targets and SYNC waits are fitted; only VAULT can be absent (R130). -/
def slotFitted (grade : Grade) (k : Nat) (b : Bytes) : Bool :=
  if grade ≠ .n then true
  else if k = 0 then
    let n := slotNum b
    !bit (syncTargets n) 4 && (syncWaits n).all fun w => decide (w.1 ≠ 4)
  else decide (k ≠ 5) && !bit (emitTargets (ctlOf b)) 4

/-- Check 4 for one slot. -/
def slotCheck4 (k : Nat) (b : Bytes) : Bool :=
  match k with
  | 0 => decide (bits (slotNum b) 127 115 = 0) && (syncWaits (slotNum b)).all fun w => decide (w.1 < 6)
  | 1 => (parseMove b).check4
  | 2 => (parseArray b).check4
  | 3 => (parseVec b).check4
  | 4 => (parseShut b).check4
  | 5 => (parseVault b).check4
  | 6 => (parseAudit b).check4
  | _ => (parseConf b).check4

/-- A take-up stream of FP64 values is an FP64 operand, which the FP64 column must allow, whatever format src0_td gives (R165,
R173). -/
def wideStreamOk (w : Word) (v : VecSlot) : Bool :=
  !v.takeup || (match w.slot 2, vOp? v.opcode with
    | some a, some o => !((parseArray a).takeup && decide ((parseArray a).partialFmt = .fp64)) || decide (o.wide = .yes)
    | _, _ => true)

/-- Check 5 for one slot. -/
def slotCheck5 (w : Word) (k : Nat) (b : Bytes) : Bool :=
  match k with
  | 1 => (parseMove b).check5
  | 2 => (parseArray b).check5
  | 3 => (parseVec b).check5 && wideStreamOk w (parseVec b)
  | 4 => (parseShut b).check5
  | 7 => (parseConf b).check5
  | _ => true

/-- Check 6 for one slot. -/
def slotCheck6 (k : Nat) (b : Bytes) : Bool :=
  match k with
  | 1 => (parseMove b).check6
  | 2 => (parseArray b).check6
  | 3 => (parseVec b).check6
  | 4 => (parseShut b).check6
  | 6 => (parseAudit b).check6
  | 7 => (parseConf b).check6
  | _ => true

/-- Check 7 for one slot (R72, R124). -/
def slotCheck7 (w : Word) (k : Nat) (b : Bytes) : Bool :=
  match k with
  | 2 => !(parseArray b).takeup || (match w.slot 3 with
    | some v => (parseVec v).takeup
    | none => false)
  | 3 =>
    let v := parseVec b
    !v.takeup || (match w.slot 2 with
      | some a =>
        let s := parseArray a
        s.takeup && decide (s.c.fmt = v.src0.fmt) && s.c.sameSizes v.src0 && decide (v.dies = if s.split then 15 else 12)
      | none => false)
  | _ => true

/-- The first slot, in mask order, that a check refuses. -/
def firstBad (w : Word) (ok : Nat → Bytes → Bool) : Option Nat :=
  (w.slots.find? fun p => !ok p.1 p.2).map Prod.fst

/-- Checks 2 to 7 of R129: the status and detail of the first failure. -/
def wordChecks (grade : Grade) (w : Word) : Option (Status × Nat) :=
  if bits w.hdr 28 0 ≠ 0 ∨ w.bytes.length ≠ maskLength w.hdr then some (.badSlot, badSlotDetail 0 0xFF)
  else match firstBad w (slotFitted grade) with
  | some k => some (.engineAbsent, k)
  | none => match firstBad w slotCheck4 with
    | some k => some (.badSlot, badSlotDetail 0 k)
    | none => match firstBad w (slotCheck5 w) with
      | some k => some (.badFormat, k)
      | none => match firstBad w slotCheck6 with
        | some k => some (.badTd, k)
        | none => match firstBad w (slotCheck7 w) with
          | some k => some (.badSlot, badSlotDetail 0 k)
          | none => none

end Sys2Proof.Machine
end

