-- ==== Sys2Proof/Machine/Qp.lean ====
section
/-! DEFINITION. The states of a queue pair (R281), shared by command delivery, records, host transfers and the in-band
dictionary. -/

namespace Sys2Proof.Machine

open Sys2Proof

/-- The command, completion and management QPs (R280). -/
def qCmd : QpNo := 0
def qComp : QpNo := 1
def qMgmt : QpNo := 17

/-- The QP of a data QP number 0 to 14 (R280). -/
def qData (n : Nat) : QpNo := Fin.ofNat 18 (n % 15 + 2)

/-- Qp states' codes. -/
def QpState.code : QpState → Nat
  | .reset => 0 | .rts => 1 | .error => 2

/-- The port's Ethernet island is in service, gated or not, and its link is up (R18, R274, R382). -/
def Mach.hostUp (m : Mach) : Bool := m.reachable [101] && decide (m.host.mode < 3)

/-- A packet marked CE: the port sends a CNP to the sending QP, at most once per cnp_interval (R278). -/
def Mach.ceMark (m : Mach) (c : CtxId) (q : QpNo) (ce : Bool) : Mach :=
  let gap := m.num 0x2700 0x0E * 1000
  let due : Bool := match (m.ctxs[c]).qps[q].cnpTx with
    | some t => decide (t + gap ≤ m.now)
    | none => true
  if ce && due then ((m.modQp c q fun p => { p with cnpTx := some m.now }).cnt 0x6005 101 (some c)).send (.cnp c q) else m

/-- An address is an IPv4 address mapped into IPv6 (R292). -/
def mappedV4 (b : Bytes) : Bool := decide (b.take 12 = List.replicate 10 0 ++ [0xFF, 0xFF])

/-- Length of the IP packet that carries n payload bytes and an extended transport header of so many bytes to a QP: IP, UDP, BTH,
padding, ICRC. -/
def Mach.ipBytes (m : Mach) (c : CtxId) (q : QpNo) (n ext : Nat) : Nat :=
  (if mappedV4 (m.obj (qpIdx c q) 3).toBytes then 20 else 40) + 8 + 12 + ext + cdiv n 4 * 4 + 4

/-- Packets of a received message that are longer than host_mtu (R276). -/
def Mach.oversize (m : Mach) (c : CtxId) (q : QpNo) (n ext : Nat) : Nat :=
  let p := max 1 (m.num (qpIdx c q) 7)
  ((List.range (max 1 (cdiv n p))).filter fun i =>
    decide (m.num 0x2700 9 < m.ipBytes c q (min p (n - i * p)) (if i = 0 then ext else 0))).length

/-- A message of n payload bytes for a QP is taken: the link is up, its packets fit host_mtu, the QP is in RTS (R276, R281). -/
def Mach.qpTakes (m : Mach) (c : CtxId) (q : QpNo) (n ext : Nat) : Bool :=
  m.hostUp && decide (m.oversize c q n ext = 0) && decide ((m.ctxs[c]).qps[q].st = .rts)

/-- A message for a QP, n payload bytes and an extended header: nothing arrives without a link; packets longer than host_mtu are
dropped and counted, and so is what arrives in RESET and in ERROR; in RTS it is handled (R276, R281). -/
def Mach.qpRecv (m : Mach) (c : CtxId) (q : QpNo) (ce : Bool) (n ext : Nat) (f : Mach → Mach) : Mach :=
  if !m.hostUp then m
  else if m.oversize c q n ext ≠ 0 then m.cnt 0x6001 101 none (m.oversize c q n ext)
  else match (m.ctxs[c]).qps[q].st with
    | .reset => m.cnt 0x6007 101 (some c)
    | .error => m.cnt 0x6008 101 (some c)
    | .rts => f ((m.wake [101]).ceMark c q ce)

/-- A NAK, which goes out though its QP enters ERROR. -/
def Out.isNak : Out → Bool
  | .rcNak _ _ _ | .rnrNak _ _ _ => true
  | _ => false

/-- A QP enters ERROR: the module's outstanding requests on it fail, and with them the MOVE slots that issued them (R281,
R289). Records stay to be written again (R286). -/
def Mach.qpError (m : Mach) (c : CtxId) (q : QpNo) (st : Status) (detail : Nat) : Mach :=
  let m := m.modQp c q fun p => { p with st := .error, outstanding := [] }
  let m := { m with host := { m.host with waiting := m.host.waiting.filter fun o => !decide (o.qp = some (c, q)) || o.isNak } }
  { m with mv := { m.mv with jobs := m.mv.jobs.map fun j =>
      let s := parseMove j.slot.bytes
      if j.c = c ∧ (s.ty = some .hostIn ∨ s.ty = some .hostOut) ∧ qData s.far = q ∧ 0 < j.outstanding then
        { j with outstanding := 0, failed := some (j.failed.getD (BitVec.ofNat 8 st.code, BitVec.ofNat 32 detail)) }
      else j } }

/-- Answer a message with NAK Invalid Request; the QP enters ERROR (R279, R282). -/
def Mach.nakInvalid (m : Mach) (c : CtxId) (q : QpNo) : Mach :=
  (m.send (.rcNak c q .invalidRequest)).qpError c q .linkLost 0xFFFFFFFF

/-- Packets of a message of n bytes under the QP's path MTU, at least one. -/
def Mach.pktsOf (m : Mach) (c : CtxId) (q : QpNo) (n : Nat) : Nat := max 1 (cdiv n (max 1 (m.num (qpIdx c q) 7)))

/-- A message of n bytes has been received in PSN order. -/
def Mach.psnRx (m : Mach) (c : CtxId) (q : QpNo) (n : Nat) : Mach :=
  let k := m.pktsOf c q n
  m.modQp c q fun p => { p with expPsn := (p.expPsn + k) % 2 ^ 24 }

/-- A message of n bytes is sent. -/
def Mach.psnTx (m : Mach) (c : CtxId) (q : QpNo) (n : Nat) : Mach :=
  let k := m.pktsOf c q n
  m.modQp c q fun p => { p with sendPsn := (p.sendPsn + k) % 2 ^ 24 }

end Sys2Proof.Machine
end

