-- ==== Sys2Proof/Machine/Sequencer.lean ====
section
/-! DEFINITION. The sequencer (chapter 05): command delivery, dispatch, the SYNC emit and ordered completion. -/

namespace Sys2Proof.Machine

open Sys2Proof

/-! ### Command delivery (R117, R282, R283) -/

/-- Bytes in a context's command queue. -/
def Ctx.cmdBytes (x : Ctx) : Nat := (x.cmdQ.map List.length).sum

/-- The 1 MiB command queue takes another message: 4,096 B are free and the context is not RESETTING (R283). -/
def Ctx.cmdRoom (x : Ctx) : Bool := decide (x.cmdBytes + 4096 ≤ 2 ^ 20) && decide (x.st ≠ .resetting)

/-- COMMAND_SEND (R282, R283): a complete SEND on the command QP joins the command queue and is acknowledged; an oversized one
is NAKed, and one that finds no room is answered with RNR NAK. In QUIET a SEND to an ENABLED context wakes the module (R384). -/
def execCommandSend (c : CtxId) (msg : Bytes) (ce : Bool) (s : State) : Host.Outcome State Fault Refusal :=
  runs s fun m => m.qpRecv c qCmd ce msg.length 0 fun m =>
    let x := m.ctxs[c]
    if 4096 < msg.length then (m.cnt 0x6009 101 (some c)).nakInvalid c qCmd
    else if x.cmdRoom then
      let m := if x.st = .enabled then m.leaveQuiet else m
      let m := m.modCtx c fun x => if msg = [] then x else { x with cmdQ := x.cmdQ ++ [msg] }
      (m.psnRx c qCmd msg.length).send (.rcAck c qCmd)
    else (m.cnt 0x600A 101 (some c)).send (.rnrNak c qCmd (m.num (qpIdx c qCmd) 0x0B))

/-! ### Dispatch (R129 to R131, R137, R142) -/

/-- Reject a word: its context faults, engine 7, both ranges empty (R129, R155). -/
def Mach.reject (m : Mach) (c : CtxId) (seq : BitVec 16) (ordered : Bool) (st : Status) (detail : Nat) : Mach :=
  (m.cnt 0xE001 132 (some c)).faultCtx c
    ⟨BitVec.ofNat 8 st.code, BitVec.ofNat 32 detail, 7, seq, 0, (m.ctxs[c]).step, ordered, noRange, noRange, 0xFF, m.now⟩

/-- Does a word's header ask for ordered completion, by its own flag or as a STEP_BOUNDARY word (R142)? -/
def Word.ordered (w : Word) : Bool := bit w.hdr 30 || bit w.hdr 29

/-- The slots of a word that enter engine queues, in mask order. -/
def Word.engineSlots (w : Word) : List (Eng × Bytes) :=
  w.slots.filterMap fun p =>
    if p.1 = 0 then none
    else match engOf (p.1 - 1) with
      | none => none
      | some e => some (e, p.2)

/-- A CONF slot that commits at dispatch: SET_SEED or SET_STEP (R128). -/
def isSetting (e : Eng) (b : Bytes) : Bool := decide (e = .conf) && decide (2 ≤ (parseConf b).op)

/-- The waits of a word's SYNC slot (R137). -/
def Word.waits (w : Word) : List (Nat × Nat) :=
  match w.slot 0 with
  | some b => syncWaits (slotNum b)
  | none => []

/-- Every queue the word needs has room for its slot: 64 slots each (R131). -/
def Ctx.queueRoom (x : Ctx) (w : Word) : Bool :=
  w.engineSlots.all fun p => isSetting p.1 p.2 || decide ((x.queues[p.1.num]).length < 64)

/-- The seed and step a word takes at its dispatch (R142), with its own SET_SEED or SET_STEP in effect (R128, log 13). -/
def Ctx.seedStep (x : Ctx) (w : Word) : BitVec 64 × BitVec 64 :=
  match w.slot 7 with
  | none => (x.seed, x.step)
  | some b =>
    let f := parseConf b
    if f.op = 2 then (BitVec.ofNat 64 f.value, x.step)
    else if f.op = 3 then (x.seed, BitVec.ofNat 64 f.value)
    else (x.seed, x.step)

/-- Does a word's AUDIT slot close the word digest (R332)? -/
def closesDigest (b : Bytes) : Bool :=
  let a := parseAudit b
  decide (a.op = 0) || (decide (a.op = 1) && a.withWords)

/-- The queue entry of one slot. -/
def Word.entry (w : Word) (uid : Nat) (ss : BitVec 64 × BitVec 64) (cls : Nat) (digest : Bytes) (p : Eng × Bytes) : QSlot :=
  { uid := uid, seq := w.seq, eng := p.1, bytes := p.2, seed := ss.1, step := ss.2, cls := cls,
    words := if p.1 = .audit ∧ closesDigest p.2 then digest else [] }

/-- The record of a word just dispatched. -/
def Word.record (w : Word) (uid : Nat) (step : BitVec 64) : WordRec :=
  let n := match w.slot 0 with
    | some b => slotNum b
    | none => 0
  let left := w.engineSlots.map Prod.fst
  let t := BitVec.ofNat 7 (syncTargets n)
  { uid := uid, seq := w.seq, fence := bit w.hdr 31, ordered := bit w.hdr 30, stepBoundary := bit w.hdr 29,
    hasSync := (w.slot 0).isSome, syncTargets := t, syncId := BitVec.ofNat 12 (syncEmitId n),
    userTag := BitVec.ofNat 32 (syncTag n), step := step, left := left, syncFired := false, told := false,
    completed := decide (left = []) && decide (t = 0) && !bit w.hdr 29 }

/-- Put a word into its queues in one step (R131): its SYNC waits are consumed, it takes seed, step and class, and the word
digest grows. -/
def Ctx.place (x : Ctx) (w : Word) (cls : Nat) : Ctx :=
  let ss := x.seedStep w
  let digest := x.wordBytes ++ w.bytes
  let closes := match w.slot 6 with
    | some b => closesDigest b
    | none => false
  let uid := x.nextUid
  let x := x.consume w.waits
  let qs := (w.engineSlots.filter fun p => !isSetting p.1 p.2).foldl
    (fun q p => Vec.upd q p.1.num fun l => l ++ [w.entry uid ss cls digest p]) x.queues
  { x with queues := qs, words := x.words ++ [w.record uid ss.2], nextUid := uid + 1, seed := ss.1, step := ss.2,
           wordBytes := if closes then [] else digest,
           stepHold := if bit w.hdr 29 then .word uid else x.stepHold }

/-- Commit what commits at dispatch: SET_SEED and SET_STEP, then the emit of a word that has nothing else left (R128, R137). -/
def Mach.settle (m : Mach) (c : CtxId) (w : Word) (uid : Nat) (cls : Nat) : Mach :=
  let m := match w.engineSlots.find? fun p => isSetting p.1 p.2 with
    | some p => m.commitSlot c (w.entry uid ((m.ctxs[c]).seed, (m.ctxs[c]).step) cls [] p)
    | none => m
  let x := m.ctxs[c]
  let m := m.modCtx c Ctx.retire
  match x.words.find? fun v => decide (v.uid = uid) with
  | some v => if x.mayFire v then m.fireWord c v else m
  | none => m

/-- A SET_SEED or SET_STEP that writes a record finds room for it (R136, R285). -/
def Ctx.settingRoom (x : Ctx) (w : Word) : Bool :=
  !(w.engineSlots.any fun p => isSetting p.1 p.2 && bit (emitTargets (ctlOf p.2)) 6) || x.recordRoom

/-- The islands that slot dispatch goes to: the die control islands for ARRAY and VECTOR slots, the hub's for the others (R14,
R19). -/
def Word.path (w : Word) : List IslandId :=
  w.engineSlots.flatMap fun p => match p.1 with
    | .move => [129]
    | .array => (List.range 4).map fun d => island (23 * d + 18)
    | .vector => ((List.range 4).filter fun d => bit (parseVec p.2).dies d).map fun d => island (23 * d + 18)
    | .shuttle => [128]
    | .conf => [128]
    | .vault => [130]
    | .audit => [131]

/-- What becomes of a word that has passed its checks (R131, R137): it waits for room, it waits for its SYNC waits, or it is
dispatched. -/
def Mach.placeWord (m : Mach) (c : CtxId) (w : Word) (rest : List Bytes) : Mach :=
  let x := m.ctxs[c]
  if !x.queueRoom w then m.cnt 0xE002 132 (some c)
  else if !x.waitsHold w.waits then m
  else if !x.settingRoom w then m
  else m.over w.path fun m =>
    let cls := m.classOf c
    let m := m.modCtx c fun x => ({ x with cmdQ := rest, expected := x.expected + 1 }).place w cls
    m.settle c w x.nextUid cls

/-- The bytes left of a SEND go back to the head of the queue. -/
def putBack (more : Bytes) (rest : List Bytes) : List Bytes := if more = [] then rest else more :: rest

/-- The sequencer takes up the head word of a context (R118, R129). -/
def Mach.dispatch (m : Mach) (c : CtxId) : Mach :=
  let x := m.ctxs[c]
  if x.st ≠ .enabled ∨ x.stepHold ≠ .none then m
  else match x.cmdQ with
    | [] => m
    | send :: rest =>
      match frame send with
      | none => m.reject c x.expected false .badSlot (badSlotDetail 0 0xFF)
      | some (b, more) =>
        let w := wordOf b
        let rest := putBack more rest
        if w.seq = x.expected then
          match wordChecks m.grade w with
          | some (st, d) =>
            (m.modCtx c fun x => { x with cmdQ := rest, expected := x.expected + 1 }).reject c w.seq w.ordered st d
          | none => m.placeWord c w rest
        else if seqBefore 32767 w.seq x.expected then
          (m.modCtx c fun x => { x with cmdQ := rest }).cnt 0xE000 132 (some c)
        else
          (m.modCtx c fun x => { x with cmdQ := rest }).reject c w.seq w.ordered .badSlot (badSlotDetail 1 x.expected.toNat)

/-- The head word of a context is dispatchable: the sequencer would take it up now, and not leave it waiting (R131, R137). -/
def Ctx.dispatchable (x : Ctx) (g : Grade) : Bool :=
  decide (x.st = .enabled) && decide (x.stepHold = .none) &&
    match x.cmdQ with
    | [] => false
    | send :: _ => match frame send with
      | none => true
      | some (b, _) =>
        let w := wordOf b
        decide (w.seq ≠ x.expected) || (wordChecks g w).isSome || (x.queueRoom w && x.waitsHold w.waits && x.settingRoom w)

/-- Context c has the turn among the contexts with a dispatchable head word: they go round from the one after the last (R131). -/
def Mach.dispatchTurn (m : Mach) (c : CtxId) : Bool :=
  let after := fun (d : CtxId) => (d.val + 3 - m.lastDispatch.val) % 4
  allCtx.all fun d => !(m.ctxs[d]).dispatchable m.grade || decide (after c ≤ after d)

/-- The sequencer's own islands: crossbar, hub SRAM with the command queues, sequencer (R14). -/
def sequencerPath : List IslandId := [126, 127, 132]

/-- The sequencer turns to a context's command queue: a dispatchable head word waits for its turn (R131). -/
def Mach.sequence (m : Mach) (c : CtxId) : Mach :=
  m.over sequencerPath fun m =>
    if !(m.ctxs[c]).dispatchable m.grade then m.dispatch c
    else if m.dispatchTurn c then { m.dispatch c with lastDispatch := c }
    else m

/-- WORD_DISPATCH (R118, R129 to R131, R137). -/
def execWordDispatch (c : CtxId) (s : State) : Host.Outcome State Fault Refusal := runs s fun m => m.sequence c

/-! ### The SYNC emit and ordered completion (R137, R141, R142) -/

/-- Fire the oldest word that satisfies a predicate and may fire. -/
def Mach.fireFirst (m : Mach) (c : CtxId) (p : WordRec → Bool) : Mach :=
  let x := m.ctxs[c]
  if !x.live then m
  else match x.words.find? fun w => p w && x.mayFire w with
    | some w => m.fireWord c w
    | none => m

/-- SYNC (R137): the emit of the unordered word w fires once its other slots have committed. -/
def execSync (c : CtxId) (w : BitVec 16) (s : State) : Host.Outcome State Fault Refusal :=
  runs s fun m => m.fireFirst c fun v => decide (v.seq = w) && !v.isOrdered

/-- ORDERED_COMPLETION_RELEASE (R141, R142): the oldest ordered word whose earlier words have all completed. -/
def execOrderedCompletionRelease (c : CtxId) (s : State) : Host.Outcome State Fault Refusal :=
  runs s fun m => m.fireFirst c WordRec.isOrdered

end Sys2Proof.Machine
end

