-- ==== Sys2Proof/Machine/Loom.lean ====
section
/-! DEFINITION. The Loom (chapter 03): segments, anchored accumulation, the ARRAY slot row by row, take-up, suspension. -/

namespace Sys2Proof.Machine

open Sys2Proof

/-! ### Anchored accumulation (R64 to R67) -/

/-- Maximum exponent over the finite nonzero hi parts of a slice, −1024 where there is none (R64). -/
def sliceExp (hs : List Num) : Int := (maxExp hs).getD (-1024)

/-- The products that PASSES selects of one pair of operands (R43, R413): (hi, lo) of A and of B. -/
def productsOf (passes : Nat) (a b : Num × Num) : List (Num × Num) :=
  [(a.1, b.1)] ++ (if 1 ≤ passes ∧ !a.2.isZero then [(a.2, b.1)] else []) ++
    (if passes = 2 ∧ !b.2.isZero then [(a.1, b.2)] else [])

/-- hi and lo of an operand (R42). -/
def splitOf (f : Fmt) (x : Num) : Num × Num := if f.wide then (splitHi x, splitLo x) else (x, .fin false 0 0)

/-- ⌊(−1)^s m 2^e / 2^q⌋, and whether a fraction was dropped. -/
def floorUnits (s : Bool) (m : Nat) (e q : Int) : Int × Bool :=
  if q ≤ e then
    let v : Int := m * (2 : Int) ^ (e - q).toNat
    (if s then -v else v, false)
  else
    let d := (q - e).toNat
    let t : Int := (m / 2 ^ d : Nat)
    let r := m % 2 ^ d
    if s then (if r = 0 then -t else -t - 1, decide (r ≠ 0)) else (t, decide (r ≠ 0))

/-- The running state of a segment sum (R66). -/
structure SegSum where
  w : Int := 0
  sticky : Bool := false
  nan : Bool := false
  pinf : Bool := false
  ninf : Bool := false
  allNeg0 : Bool := true
  deriving DecidableEq, Repr

/-- Take one product into the sum, at anchor z (R66). -/
def SegSum.take (z : Int) (g : SegSum) (p : Num × Num) : SegSum :=
  match p.1.mul p.2 with
  | .nan => { g with nan := true }
  | .inf s => if s then { g with ninf := true } else { g with pinf := true }
  | .fin s m e =>
    let t := floorUnits s m e (z - 96)
    { g with w := g.w + t.1, sticky := g.sticky || t.2, allNeg0 := g.allNeg0 && (decide (m = 0) && s) }

/-- The value of a finished segment sum, before its rounding (R66). -/
def SegSum.value (z : Int) (g : SegSum) : Num :=
  if g.nan || (g.pinf && g.ninf) then .nan
  else if g.pinf then .inf false
  else if g.ninf then .inf true
  else if g.w = 0 ∧ !g.sticky then .fin g.allNeg0 0 0
  else
    let v := 2 * g.w + (if g.sticky then 1 else 0)
    .fin (decide (v < 0)) v.natAbs (z - 97)

/-- Segment sum of operand pairs in K order at an anchor, in the partial type (R66). -/
def segmentSumAt (z : Int) (pf : Fmt) (passes : Nat) (fa fb : Fmt) (ops : List (Num × Num)) : Num :=
  let g := (ops.flatMap fun p => productsOf passes (splitOf fa p.1) (splitOf fb p.2)).foldl (SegSum.take z) {}
  pf.rnd (g.value z)

/-- The greatest exponent of a slice of operands: of their hi parts (R64). -/
def slicePeak (f : Fmt) (xs : List Num) : Int := sliceExp (xs.map fun x => (splitOf f x).1)

/-- Segment sum of paired operands in K order, in the partial type: the anchor is that of R64. -/
def segmentSum (pf : Fmt) (passes : Nat) (fa fb : Fmt) (ops : List (Num × Num)) : Num :=
  segmentSumAt (slicePeak fa (ops.map Prod.fst) + slicePeak fb (ops.map Prod.snd) + 1) pf passes fa fb ops

/-- add in the partial type (R67). -/
def partialAdd (pf : Fmt) (x y : Num) : Num := pf.rnd (x.add y)

/-- Combine segment results in ascending order, from an earlier value if there is one (R67). -/
def combine (pf : Fmt) : Option Num → List Num → Option Num
  | v, [] => v
  | none, s :: rest => combine pf (some s) rest
  | some v, s :: rest => combine pf (some (partialAdd pf v s)) rest

/-! ### Operands as the Loom reads them (R55, R56) -/

/-- A descriptor as die d reads it: base and index tensor at their offsets on that die. -/
def Td.atDie (t : Td) (d : Nat) : Td :=
  { t with addr := d * 2 ^ 29 + t.addr % 2 ^ 29,
           indexAddr := if t.indexAddr = 0 then 0 else d * 2 ^ 29 + t.indexAddr % 2 ^ 29 }

/-- Position of the indexed dimension that row i1 of batch element b has (R93). -/
def Td.ixPos (t : Td) (i1 b : Nat) : Nat :=
  match t.outer with
  | some 1 => i1
  | some 2 => b % t.size2
  | _ => b / t.size2

/-- Address of row i1 of batch element b, as die d reads it. -/
def Mach.loomRow (m : Mach) (t : Td) (d i1 b : Nat) : Nat :=
  let u := t.atDie d
  addr44 ((u.addr : Int) + u.rowOff (m.indexOf u) i1 (b % t.size2) (b / t.size2))

/-- Stored code of element (i0, i1) of batch element b, as die d reads it; the scale of its MX block lies above the code. -/
def Mach.loomCode (m : Mach) (t : Td) (d i0 i1 b : Nat) : Nat :=
  let r := m.loomRow t d i1 b
  let p := elemPlace t.format t.size0 i0
  if t.format.isMx then
    leNat (m.spadRead (r + p.1) 2) / 2 ^ p.2.1 % 2 ^ t.format.bits + 2 ^ 64 * leNat (m.spadRead (r + p.2.2) 1)
  else leNat (m.spadRead (r + p.1) (t.format.bits / 8))

/-- The value of a stored code (R63). -/
def Fmt.ofCell (f : Fmt) (x : Nat) : Num := if f.isMx then mxScaled (f.decode (x % 2 ^ 64)) (x / 2 ^ 64) else f.decode x

/-- The index entry that row i1 of batch element b reads on die d, if the descriptor has an index tensor. -/
def Td.entryAt (t : Td) (d p : Nat) : List (Nat × Nat) :=
  if t.indexAddr = 0 then []
  else let w := if t.indexFmt then 4 else 2
    [((t.atDie d).indexAddr + w * p, w)]

/-- Bytes read for element (i0, i1): its own, its scale byte, its index entry. -/
def Mach.loomRanges (m : Mach) (t : Td) (d i0 i1 b : Nat) : List (Nat × Nat) :=
  let r := m.loomRow t d i1 b
  let p := elemPlace t.format t.size0 i0
  (r + p.1, cdiv (p.2.1 + t.format.bits) 8) :: (if t.format.isMx then [(r + p.2.2, 1)] else []) ++ t.entryAt d (t.ixPos i1 b)

/-- The index entry of row i1 that lies at or above its bound, by its position (R75, R93). -/
def Mach.badEntry (m : Mach) (t : Td) (d i1 b : Nat) : Option Nat :=
  if t.indexAddr = 0 then none
  else if t.indexBound ≤ m.indexOf (t.atDie d) (t.ixPos i1 b) then some (t.ixPos i1 b) else none

/-- Die that reads A for segment k and column n: under PAIRED the left die of the row (R55, R56). -/
def ArraySlot.dieA (s : ArraySlot) (k n : Nat) : Nat := 2 * (k % 2) + (if s.paired then 0 else n / 16 % 2)

/-- Die that holds B for segment k and column n. -/
def dieB (k n : Nat) : Nat := 2 * (k % 2) + n / 16 % 2

/-- K indices of segment k (R62). -/
def ArraySlot.segRange (s : ArraySlot) (k : Nat) : List Nat :=
  (List.range (min s.segLen (s.depthK - k * s.segLen))).map fun i => k * s.segLen + i

/-- Inner and outer position of op(A)'s element (mm, kk), and of op(B)'s element (kk, n) (R53). -/
def ArraySlot.posA (s : ArraySlot) (kk mm : Nat) : Nat × Nat := if s.ta then (mm, kk) else (kk, mm)

def ArraySlot.posB (s : ArraySlot) (kk n : Nat) : Nat × Nat := if s.tb then (kk, n) else (n, kk)

/-- Segments of segment pair p (R54). -/
def ArraySlot.pairSegs (s : ArraySlot) (p : Nat) : List Nat := [2 * p, 2 * p + 1].filter fun k => decide (k < s.nSeg)

/-- Codes of segment k of row mm of op(A), as die d streams them. -/
def Mach.rowCells (m : Mach) (s : ArraySlot) (d b k mm : Nat) : List Nat :=
  (s.segRange k).map fun kk => m.loomCode s.a d (s.posA kk mm).1 (s.posA kk mm).2 b

/-- Codes of segment k of column n of op(B), from the scratchpad of the die that holds them. -/
def Mach.colCells (m : Mach) (s : ArraySlot) (b k n : Nat) : List Nat :=
  (s.segRange k).map fun kk => m.loomCode s.b (dieB k n) (s.posB kk n).1 (s.posB kk n).2 b

/-- Bytes of segment k of row mm as die d streams it, and of column n. -/
def Mach.rowReads (m : Mach) (s : ArraySlot) (d b k mm : Nat) : List (Nat × Nat) :=
  (s.segRange k).flatMap fun kk => m.loomRanges s.a d (s.posA kk mm).1 (s.posA kk mm).2 b

def Mach.colReads (m : Mach) (s : ArraySlot) (b k n : Nat) : List (Nat × Nat) :=
  (s.segRange k).flatMap fun kk => m.loomRanges s.b (dieB k n) (s.posB kk n).1 (s.posB kk n).2 b

/-- Key of row kk and column n in a stationary bank, and of a segment and column. -/
def bankKey (k n : Nat) : Nat := k * 2 ^ 17 + n

/-- The slice of column n that the banks hold for segment k. -/
def Banks.column (bk : Banks) (s : ArraySlot) (k n : Nat) : List Nat :=
  (s.segRange k).map fun kk => Sparse.get 0 (bankKey kk n) bk.cells

/-- Result of segment k for element (mm, n) of batch element b, with B in the banks (R50, R64, R66). -/
def Mach.segOf (m : Mach) (s : ArraySlot) (bk : Banks) (b k mm n : Nat) : Num :=
  let as := (m.rowCells s (s.dieA k n) b k mm).map s.a.format.ofCell
  let bs := (bk.column s k n).map s.b.format.ofCell
  segmentSumAt (slicePeak s.a.format as + Sparse.get (-1024) (bankKey k n) bk.exps + 1) s.partialFmt s.passes s.a.format s.b.format
    (as.zip bs)

/-! ### Order of the work (R54, R60) -/

/-- Chunks per die and pass. -/
def Grade.chunks : Grade → Nat
  | .b => 17
  | _ => 18

/-- Chunk groups n_N. -/
def ArraySlot.groups (s : ArraySlot) (g : Grade) : Nat := max 1 (cdiv (cdiv (cdiv s.colsN 16) 2) g.chunks)

/-- Row steps of a slot: batch elements × chunk groups × segment pairs × rows. -/
def ArraySlot.total (s : ArraySlot) (g : Grade) : Nat := s.batch * s.groups g * s.nPair * s.rowsM

/-- Batch element, chunk group, segment pair and row of step p. -/
def ArraySlot.stepAt (s : ArraySlot) (g : Grade) (p : Nat) : Nat × Nat × Nat × Nat :=
  let row := p % s.rowsM
  let q := p / s.rowsM
  (q / s.nPair / s.groups g, q / s.nPair % s.groups g, q % s.nPair, row)

/-- Columns of chunk group h. -/
def ArraySlot.groupCols (s : ArraySlot) (g : Grade) (h : Nat) : List Nat :=
  let lo := 32 * h * g.chunks
  (List.range (min (32 * g.chunks) (s.colsN - lo))).map fun i => lo + i

/-! ### Places of partials and results (R58) -/

/-- Index of column n among the columns of its side. -/
def sideIndex (n : Nat) : Nat := n / 32 * 16 + n % 16

/-- Address of the partial of element (mm, n). -/
def ArraySlot.partialAddr (s : ArraySlot) (mm n : Nat) : Nat :=
  let side := n / 16 % 2
  (2 + side) * 2 ^ 29 + s.partialBase + (mm * sideCols s.colsN side + sideIndex n) * s.partialW

/-- The stored partial of element (mm, n). -/
def Mach.partialAt (m : Mach) (s : ArraySlot) (mm n : Nat) : Num :=
  s.partialFmt.decode (leNat (m.spadRead (s.partialAddr mm n) s.partialW))

/-- Address of row mm of batch element b of the destination. -/
def Mach.destRow (m : Mach) (s : ArraySlot) (b mm : Nat) : Nat :=
  addr44 ((s.c.addr : Int) + s.c.rowOff (m.indexOf s.c) mm (b % s.c.size2) (b / s.c.size2))

/-- Destination element (mm, n), widened (R67). -/
def Mach.destAt (m : Mach) (s : ArraySlot) (b mm n : Nat) : Num :=
  elemOf m.spadRead s.c.format s.c.size0 (m.destRow s b mm) n

/-- The value element (mm, n) had before segment pair p, if any. -/
def Mach.before (m : Mach) (s : ArraySlot) (b p mm n : Nat) : Option Num :=
  if p ≠ 0 then some (m.partialAt s mm n)
  else if s.accum then some (m.destAt s b mm n)
  else none

/-- The value of element (mm, n) after segment pair p (R67). -/
def Mach.elementAfter (m : Mach) (s : ArraySlot) (bk : Banks) (b p mm n : Nat) : Num :=
  (combine s.partialFmt (m.before s b p mm n) ((s.pairSegs p).map fun k => m.segOf s bk b k mm n)).getD .nan

/-! ### Take-up (R71, R72) -/

/-- The queue that takes element (mm, n): V2, V3, or with TAKEUP_SPLIT V0, V1 for odd rows. -/
def ArraySlot.queueOf (s : ArraySlot) (mm n : Nat) : Nat :=
  let side := n / 16 % 2
  if s.split ∧ mm % 2 = 1 then side else 2 + side

/-- Linear index of element (mm, n) of batch element b (R38). -/
def ArraySlot.linear (s : ArraySlot) (b mm n : Nat) : Nat := (b * s.rowsM + mm) * s.colsN + n

/-- The stream of a slot, empty where none has been delivered. -/
def Mach.takeupOf (m : Mach) (c : CtxId) (uid : Nat) : TakeUp :=
  (m.takeups.find? fun t => decide (t.c = c ∧ t.uid = uid)).getD ⟨c, uid, [], false, false, false, 0, Vector.replicate 4 0⟩

/-- Replace the stream of a slot. -/
def Mach.putTakeup (m : Mach) (t : TakeUp) : Mach :=
  { m with takeups := t :: m.takeups.filter fun u => !decide (u.c = t.c ∧ u.uid = t.uid) }

/-- The consumer of a stream has started. -/
def Mach.consumerStarted (m : Mach) (c : CtxId) (uid : Nat) : Bool := m.vecs.any fun j => decide (j.c = c ∧ j.slot.uid = uid)

/-- A stream waits in the queues: its consumer has not started, and its instruction is not suspended (R72, R74). -/
def Mach.streamWaits (m : Mach) (t : TakeUp) : Bool :=
  !m.consumerStarted t.c t.uid && !m.arrays.any fun j => decide (j.c = t.c ∧ j.slot.uid = t.uid) && j.suspended

/-- Bytes that wait in the queue of vector engine q, of all the streams that share it. -/
def Mach.queued (m : Mach) (q : Nat) : Nat := ((m.takeups.filter m.streamWaits).map fun t => t.held.toList.getD q 0).sum

/-- Bytes of a row's columns that go to queue q. -/
def ArraySlot.rowBytesTo (s : ArraySlot) (q mm : Nat) (cols : List Nat) : Nat :=
  (cols.filter fun n => decide (s.queueOf mm n = q)).length * s.partialW

/-- The queues that a row would overfill, with no consumer to drain them: the lower dies whose combiner stalls (R72). DESIGN CHOICE: a
row is held back whole (log 70). -/
def Mach.takeupFull (m : Mach) (s : ArraySlot) (c : CtxId) (uid mm : Nat) (cols : List Nat) : List Nat :=
  if m.consumerStarted c uid then []
  else [2, 3].filter fun d => cols.any fun n => decide (n / 16 % 2 = d - 2) &&
    decide (262144 < m.queued (s.queueOf mm n) + s.rowBytesTo (s.queueOf mm n) mm cols)

/-! ### One row step -/

/-- The word of the slot's generator draw for linear index i (R36, R40). -/
def ArraySlot.rand (s : ArraySlot) (q : QSlot) (i : Nat) : Option Nat :=
  if s.stoch then some (genU q.seed.toNat q.step.toNat s.tag i) else none

/-- Write one final row: converted once, with saturations counted at the combiner's island (R68, R412). -/
def Mach.writeFinal (m : Mach) (s : ArraySlot) (c : CtxId) (q : QSlot) (b mm : Nat) (cols : List Nat) (vs : List Num) : Mach :=
  let f := s.c.format
  let cs := (cols.zip vs).map fun p => (p.1, f.encode (s.rand q (s.linear b mm p.1)) p.2)
  let a := m.destRow s b mm + cols.headD 0 * f.bits / 8
  let m := m.spadPut a (cs.flatMap fun p => natLe (f.bits / 8) p.2.bits) (some c)
  let sat := fun side => (cs.filter fun p => p.2.sat && decide (p.1 / 16 % 2 = side)).length
  (m.cnt 0x0001 52 (some c) (sat 0)).cnt 0x0001 75 (some c) (sat 1)

/-- Write one row of partials (R58). -/
def Mach.writePartials (m : Mach) (s : ArraySlot) (c : CtxId) (mm : Nat) (cols : List Nat) (vs : List Num) : Mach :=
  (cols.zip vs).foldl (fun m p =>
    m.spadPut (s.partialAddr mm p.1) (natLe s.partialW (s.partialFmt.encode none p.2).bits) (some c)) m

/-- Deliver one row to the take-up queues (R71). DESIGN CHOICE: with more than one chunk group a queue receives its rows group by group,
as R60 has them, and the stream keeps each value by its linear index, so that its consumer sees no order (log 71). -/
def Mach.deliver (m : Mach) (s : ArraySlot) (c : CtxId) (uid b mm : Nat) (cols : List Nat) (vs : List Num) : Mach :=
  let t := m.takeupOf c uid
  let put := fun (g : Sparse Nat) (p : Nat × Num) => Sparse.put (s.linear b mm p.1) (s.partialFmt.encode none p.2).bits g
  let held := if m.consumerStarted c uid then t.held
    else Vector.ofFn fun (q : Fin 4) => t.held[q] + s.rowBytesTo q.val mm cols
  m.putTakeup { t with vals := (cols.zip vs).foldl put t.vals, part := if s.ints then 2 else if s.fp64 then 1 else 0, held := held }

/-- What a row step reads of the results of earlier passes, or of the destination (R67). -/
def Mach.priorReads (m : Mach) (s : ArraySlot) (b p mm : Nat) (cols : List Nat) : List (Nat × Nat) :=
  if p ≠ 0 then cols.map fun n => (s.partialAddr mm n, s.partialW)
  else if s.accum then cols.map fun n => (m.destRow s b mm + n * s.c.format.bits / 8, s.c.format.bits / 8)
  else []

/-- The dies that stream a row of A for some columns in segment k. -/
def ArraySlot.rowDies (s : ArraySlot) (k : Nat) (cols : List Nat) : List Nat :=
  (List.range 4).filter fun d => cols.any fun n => decide (s.dieA k n = d)

/-- The bytes a row step reads: the row on each die that streams it, and what it adds to (R80). -/
def Mach.stepReads (m : Mach) (s : ArraySlot) (b p mm : Nat) (cols : List Nat) : List (Nat × Nat) :=
  ((s.pairSegs p).flatMap fun k => (s.rowDies k cols).flatMap fun d => m.rowReads s d b k mm) ++ m.priorReads s b p mm cols

/-- The bytes a pass preloads. -/
def Mach.passReads (m : Mach) (s : ArraySlot) (b p : Nat) (cols : List Nat) : List (Nat × Nat) :=
  (s.pairSegs p).flatMap fun k => cols.flatMap fun n => m.colReads s b k n

/-- An index entry of A that the row uses, or of B that the pass uses, at or above its bound: its position (R75). -/
def Mach.rowBadIndex (m : Mach) (s : ArraySlot) (b p mm : Nat) (cols : List Nat) : Option Nat :=
  if s.a.indexAddr = 0 then none
  else (s.pairSegs p).findSome? fun k => (s.rowDies k cols).findSome? fun d =>
    (s.segRange k).findSome? fun kk => m.badEntry s.a d (s.posA kk mm).2 b

def Mach.passBadIndex (m : Mach) (s : ArraySlot) (b p : Nat) (cols : List Nat) : Option Nat :=
  if s.b.indexAddr = 0 then none
  else (s.pairSegs p).findSome? fun k => cols.findSome? fun n =>
    (s.segRange k).findSome? fun kk => m.badEntry s.b (dieB k n) (s.posB kk n).2 b

/-- The bytes a row step writes: partials, or the final row. -/
def Mach.stepWrites (m : Mach) (s : ArraySlot) (b p mm : Nat) (cols : List Nat) : List (Nat × Nat) :=
  if p + 1 ≠ s.nPair then cols.map fun n => (s.partialAddr mm n, s.partialW)
  else if s.writeDest then [(m.destRow s b mm + cols.headD 0 * s.c.format.bits / 8, cols.length * s.c.format.bits / 8)]
  else []

/-- The first uncorrectable word among ranges that are read, or that ranges written cover only in part (R80, R85). -/
def Mach.badSpadIn (m : Mach) (rs : List (Nat × Nat)) (ws : List (Nat × Nat) := []) : Option Nat :=
  if m.mem.badWords = [] then none
  else match rs.findSome? fun r => m.spadBad r.1 r.2 with
    | some w => some w
    | none => ws.findSome? fun r => m.spadPartBad r.1 r.2

/-- Some bytes are no longer what the slot's operands held at its start: another engine writes them while the slot reads them (R57). -/
def ArrayJob.raced (j : ArrayJob) (m : Mach) (rs : List (Nat × Nat)) : Bool :=
  rs.any fun r => (List.range r.2).any fun i => j.image.any fun p =>
    decide (p.1 ≤ r.1 + i) && (match p.2[r.1 + i - p.1]? with
      | some b => decide (m.spadRead (r.1 + i) 1 ≠ [b])
      | none => false)

/-- Segment pair and columns of a pass: batch element, pair, columns. -/
def ArraySlot.passOf (s : ArraySlot) (g : Grade) (pass : Nat) : Nat × Nat × List Nat :=
  let (b, h, pr, _) := s.stepAt g (pass * s.rowsM)
  (b, pr, s.groupCols g h)

/-- The banks as pass `pass` of a slot preloads them: the codes of its slice of B, and the greatest exponent of each column (R60). -/
def Mach.preload (m : Mach) (j : ArrayJob) (s : ArraySlot) (pass : Nat) : Banks :=
  let (b, pr, cols) := s.passOf m.grade pass
  let each := fun {α : Type} (f : Nat → Nat → α) => (s.pairSegs pr).flatMap fun k => cols.map fun n => f k n
  { c := j.c, uid := j.slot.uid, pass := pass,
    cells := ((s.pairSegs pr).flatMap fun k => (s.segRange k).flatMap fun kk => cols.map fun n =>
      (bankKey kk n, m.loomCode s.b (dieB k n) (s.posB kk n).1 (s.posB kk n).2 b)).filter fun e => decide (e.2 ≠ 0),
    exps := (each fun k n => (bankKey k n, slicePeak s.b.format ((m.colCells s b k n).map s.b.format.ofCell))).filter fun e =>
      decide (e.2 ≠ -1024),
    undef := ((each fun k n => (k, n)).filter fun p => j.raced m (m.colReads s b p.1 p.2)).map fun p => bankKey p.1 p.2 }

/-- Banks hold a pass of a job. -/
def Banks.isFor (bk : Banks) (j : ArrayJob) (pass : Nat) : Bool := decide (bk.c = j.c ∧ bk.uid = j.slot.uid ∧ bk.pass = pass)

/-- What preloading a pass comes to: the banks, with what ECC corrected; an index at or above its bound; an uncorrectable word. -/
inductive Preload where
  | ok (m : Mach) (bk : Banks)
  | index (p : Nat)
  | bad (word : Nat)
  deriving DecidableEq, Repr

/-- Preload a pass (R60 step 1). -/
def Mach.tryPreload (m : Mach) (j : ArrayJob) (s : ArraySlot) (pass : Nat) : Preload :=
  let (b, pr, cols) := s.passOf m.grade pass
  match m.passBadIndex s b pr cols with
  | some p => .index p
  | none => match m.badSpadIn (m.passReads s b pr cols) with
    | some w => .bad w
    | none => .ok (m.readSpads (m.passReads s b pr cols) (some j.c)) (m.preload j s pass)

/-- While a pass streams, the inactive banks are filled for the next, unless PASSES P3 takes both or there is none (R60 step 5, R61).
What stops that preload stops it again when its own pass begins. -/
def Mach.fillInactive (m : Mach) (j : ArrayJob) (s : ArraySlot) (pass : Nat) : Mach :=
  if s.passes = 2 ∨ j.total ≤ (pass + 1) * s.rowsM then { m with inactive := none }
  else match m.tryPreload j s (pass + 1) with
    | .ok m bk => { m with inactive := some bk }
    | _ => { m with inactive := none }

/-- The banks of a pass are made active: kept, swapped in, or preloaded with nothing else to do (R50, R60 steps 1, 2 and 5). -/
def Mach.activate (m : Mach) (j : ArrayJob) (s : ArraySlot) (pass : Nat) : Preload :=
  let swapTo := fun (m : Mach) (bk : Banks) => Preload.ok ({ m with active := some bk }.fillInactive j s pass) bk
  match m.active.filter fun bk => bk.isFor j pass, m.inactive.filter fun bk => bk.isFor j pass with
  | some bk, _ => .ok m bk
  | none, some bk => swapTo m bk
  | none, none => match m.tryPreload j s pass with
    | .ok m bk => swapTo m bk
    | r => r

/-- What a row step comes to. -/
inductive RowStep where
  | done (m : Mach)
  | stalled (dies : List Nat)
  | index (p : Nat)
  | bad (word : Nat)
  deriving DecidableEq, Repr

/-- Is what element (mm, n) of a step is computed from undefined (R57)? -/
def Mach.racedAt (m : Mach) (j : ArrayJob) (s : ArraySlot) (bk : Banks) (b p mm n : Nat) : Bool :=
  (s.pairSegs p).any fun k => bk.undef.contains (bankKey k n) || j.raced m (m.rowReads s (s.dieA k n) b k mm)

/-- The value of element (mm, n) after segment pair p, a free one where another engine has written its operands (R57). -/
def Mach.elementOr (m : Mach) (j : ArrayJob) (s : ArraySlot) (bk : Banks) (b p mm n : Nat) : Num :=
  if m.racedAt j s bk b p mm n then s.partialFmt.decode (leNat (m.freeBytes (8 * s.linear b mm n) s.partialW))
  else m.elementAfter s bk b p mm n

/-- The next step of an ARRAY slot (R60, R66 to R68, R71). -/
def Mach.rowStep (m : Mach) (j : ArrayJob) : RowStep :=
  let s := parseArray j.slot.bytes
  let c := j.c
  let (b, h, pr, mm) := s.stepAt m.grade j.done
  let cols := s.groupCols m.grade h
  let last := decide (pr + 1 = s.nPair)
  let full := if last ∧ s.takeup then m.takeupFull s c j.slot.uid mm cols else []
  if full ≠ [] then .stalled full
  else match m.activate j s (j.done / s.rowsM) with
    | .index p => .index p
    | .bad w => .bad w
    | .ok m bk =>
      match m.rowBadIndex s b pr mm cols, m.badSpadIn (m.stepReads s b pr mm cols) (m.stepWrites s b pr mm cols) with
      | some p, _ => .index p
      | none, some w => .bad w
      | none, none =>
        let m := m.readSpads (m.stepReads s b pr mm cols) (some c)
        let vs := cols.map fun n => m.elementOr j s bk b pr mm n
        let m := if cols.any fun n => m.racedAt j s bk b pr mm n then m.drew else m
        if !last then .done (m.writePartials s c mm cols vs)
        else
          let m := if s.takeup then m.deliver s c j.slot.uid b mm cols vs else m
          .done (if s.writeDest then m.writeFinal s c j.slot b mm cols vs else m)

/-! ### The Loom and its arbitration (R23 to R25) -/

/-- A job is running: not suspended, not finished. -/
def ArrayJob.running (j : ArrayJob) : Bool := !j.suspended && decide (j.done < j.total)

/-- The Loom is free. -/
def Mach.loomFree (m : Mach) : Bool := m.arrays.all fun j => !j.running

/-- The running job of a context. -/
def Mach.arrayRunning (m : Mach) (c : CtxId) : Option ArrayJob := m.arrays.find? fun j => decide (j.c = c) && j.running

/-- The suspended job of a context. -/
def Mach.arrayParked (m : Mach) (c : CtxId) : Option ArrayJob := m.arrays.find? fun j => decide (j.c = c) && j.suspended

/-- Replace the unfinished job of a context. -/
def Mach.modArray (m : Mach) (c : CtxId) (uid : Nat) (f : ArrayJob → ArrayJob) : Mach :=
  { m with arrays := m.arrays.map fun j => if j.c = c ∧ j.slot.uid = uid then f j else j }

/-- A slot gives up the stationary banks: it has ended, or is suspended (R74). -/
def Mach.dropBanks (m : Mach) (c : CtxId) (uid : Nat) : Mach :=
  let keep := fun (bk : Banks) => !decide (bk.c = c ∧ bk.uid = uid)
  { m with active := m.active.filter keep, inactive := m.inactive.filter keep }

/-- Remove a job, with its banks. -/
def Mach.dropArray (m : Mach) (c : CtxId) (uid : Nat) : Mach :=
  { m.dropBanks c uid with arrays := m.arrays.filter fun j => !decide (j.c = c ∧ j.slot.uid = uid) }

/-- A context's ready ARRAY slot: at the head, startable, not FROZEN, and no ARRAY instruction of its own unfinished. -/
def Mach.arrayReady (m : Mach) (c : CtxId) : Option QSlot :=
  match m.startable c .array with
  | none => none
  | some q =>
    if (parseArray q.bytes).frozen ∨ m.arrays.any (fun j => decide (j.c = c) && decide (j.done < j.total)) then none else some q

/-- The context may run ARRAY work that has started: ENABLED, or HALTING with the slot not waiting for a consumer that can no
longer start (R148). -/
def Mach.arrayMayRun (m : Mach) (j : ArrayJob) : Bool :=
  let x := m.ctxs[j.c]
  decide (x.st = .enabled) ||
    (decide (x.st = .halting) && (!(parseArray j.slot.bytes).takeup || m.consumerStarted j.c j.slot.uid))

/-- The class of the next ARRAY work a context could put on the Loom: its ready slot or its suspended instruction. -/
def Mach.arrayClass (m : Mach) (c : CtxId) : Option Nat :=
  match m.arrayParked c with
  | some j => if m.arrayMayRun j then some (m.classOf c) else none
  | none => (m.arrayReady c).map QSlot.cls

/-- Another context has ARRAY work of a higher class ready. -/
def Mach.higherReady (m : Mach) (c : CtxId) (cls : Nat) : Bool :=
  allCtx.any fun d => decide (d ≠ c) && (match m.arrayClass d with
    | some k => decide (k < cls)
    | none => false)

/-- Among ready contexts of one class it is this one's turn: the first behind the one that started last (R23). -/
def Mach.loomTurn (m : Mach) (c : CtxId) (cls : Nat) : Bool :=
  let order := [1, 2, 3, 4].map fun k => (Fin.ofNat 4 (m.lastLoom.val + k) : CtxId)
  order.find? (fun d => decide (m.arrayClass d = some cls)) = some c

/-- A suspended instruction of this class waits in another context: it has not given up its turn, and resumes first (R24). -/
def Mach.parkedAhead (m : Mach) (c : CtxId) (cls : Nat) : Bool :=
  allCtx.any fun d => decide (d ≠ c) && (m.arrayParked d).isSome && decide (m.arrayClass d = some cls)

/-- Among the suspended instructions of one class it is this context's turn. -/
def Mach.resumeTurn (m : Mach) (c : CtxId) (cls : Nat) : Bool :=
  let order := [0, 1, 2, 3].map fun k => (Fin.ofNat 4 (m.lastLoom.val + k) : CtxId)
  order.find? (fun d => (m.arrayParked d).isSome && decide (m.arrayClass d = some cls)) = some c

/-- A row repair that Goose has asked for is still to be applied at a datapath reset (R51). -/
def Island.repairDue (i : Island) : Bool := decide (i.grownRows ≠ i.rowMap)

/-- A Loom island that is condemned, unless a spare row repairs it at the next datapath reset, or whose row repair is exhausted
(R51, R337). -/
def Mach.loomRefused (m : Mach) : Option Nat :=
  ((List.range 92).filter fun i => decide (i % 23 < 9)).find? fun i =>
    ((m.islands[island i]).condemned && !(m.islands[island i]).repairDue) || (m.islands[island i]).repairExhausted

/-! ### Faults of an ARRAY slot (R74, R75, R155) -/

/-- The fault ranges of an ARRAY slot: destination and partial region. DESIGN CHOICE: of the two partial regions that a slot of more
than one segment pair has, range1 names the first, C2's (log 68). -/
def ArraySlot.faultRanges (s : ArraySlot) : FaultRange × FaultRange :=
  let d := s.c.span s.c.addr
  (if s.writeDest then spadRange d.1 d.2 else noRange,
   match s.partials with
   | p :: _ => spadRange p.1 p.2
   | [] => noRange)

/-- Every range of an ARRAY slot lies in the context's window (R58, R91, R93). -/
def Mach.arrayWindow (m : Mach) (c : CtxId) (s : ArraySlot) : Bool :=
  ([s.a, s.b].all fun t => m.spanInWindow c t && m.indexInWindow c t) && (s.partials.all fun r => m.spadInWindow c r.1 r.2) &&
    (!s.writeDest || (m.spanInWindow c s.c && m.indexInWindow c s.c))

/-- The slot's descriptors that lie in scratchpad: with SRC0_TAKEUP src0 is no place. -/
def VecSlot.placed (s : VecSlot) : List Td :=
  match vOp? s.opcode with
  | none => []
  | some o => (if s.takeup then [] else [s.src0]) ++ (if o.src1 then [s.src1] else []) ++ (if s.noDst then [] else [s.dst])

/-- Every range of a VECTOR slot lies in the context's window (R183). -/
def Mach.vecWindow (m : Mach) (c : CtxId) (s : VecSlot) : Bool :=
  (s.placed.all fun t => m.spanInWindow c t && m.indexInWindow c t) && s.auxRange.all fun r => m.spadInWindow c r.1 r.2

/-- Leave a slot's destination and partial region undefined. A slot whose window has been taken from it reaches neither (R22). -/
def Mach.undefineArray (m : Mach) (c : CtxId) (s : ArraySlot) : Mach :=
  if !m.arrayWindow c s then m
  else
    let m := s.partials.foldl (fun m r => m.spadUndefine r.1 r.2) m
    if s.writeDest then m.undefineRows s.c false s.c.addr s.c.rows else m

/-- The parts of the auxiliary tensor that an opcode writes (R163, R171, R177, R178). -/
def VecSlot.auxWrites (s : VecSlot) : List (Nat × Nat) :=
  let n := s.src0.size0
  let r := s.src0.rows
  let e := s.src0.count
  let v := fun (o k : Nat) => (s.aux + o, 4 * k)
  match s.opcode with
  | 0x20 => s.auxRange
  | 0x21 => [v (4 * auxPad n) (2 * r)]
  | 0x22 => [v (2 * auxPad n) r]
  | 0x25 => [v (2 * auxPad n) n, v (3 * auxPad n) n]
  | 0x26 => [v (auxPad n) n]
  | 0x40 => [v 0 e, v (auxPad e) e, v (2 * auxPad e) e]
  | 0x41 => [v 0 e, v (auxPad e) e]
  | _ => []

/-- What a VECTOR slot writes beside its destination rows: parts of the auxiliary tensor; CLIP_FACTOR's destination is three fields of
the hyperparameter block (R180). -/
def VecSlot.sideWrites (s : VecSlot) : List (Nat × Nat) := if s.opcode = 0x42 then [(s.src1.addr + 36, 12)] else s.auxWrites

/-- Leave what a VECTOR slot writes undefined: its destination, and of the auxiliary tensor what its opcode does not only read (R183). A
slot whose ranges lie outside its window has written nothing. -/
def Mach.undefineVec (m : Mach) (c : CtxId) (s : VecSlot) : Mach :=
  if !m.vecWindow c s then m
  else
    let m := s.sideWrites.foldl (fun m r => m.spadUndefine r.1 r.2) m
    if s.noDst ∨ s.opcode = 0x42 then m else m.undefineRows s.dst false s.dst.addr s.dst.rows

/-- The consumer of a take-up slot: started, or still in its queue. -/
def Mach.consumerSlot (m : Mach) (c : CtxId) (uid : Nat) : Option QSlot :=
  match m.vecs.find? fun j => decide (j.c = c ∧ j.slot.uid = uid) with
  | some j => some j.slot
  | none => ((m.ctxs[c]).queues[Eng.vector.num]).find? fun q => decide (q.uid = uid)

/-- An ARRAY slot that stops takes its consumer with it: neither commits, and what the consumer writes is undefined (R74). -/
def Mach.stopConsumer (m : Mach) (c : CtxId) (uid : Nat) : Mach :=
  match m.consumerSlot c uid with
  | none => m
  | some q =>
    let m := m.undefineVec c (parseVec q.bytes)
    { m with vecs := m.vecs.filter fun j => !decide (j.c = c ∧ j.slot.uid = uid),
             takeups := m.takeups.filter fun t => !decide (t.c = c ∧ t.uid = uid) }

/-- Stop a started ARRAY slot: what it writes is undefined, and its consumer stops. -/
def Mach.stopArray (m : Mach) (j : ArrayJob) : Mach :=
  let s := parseArray j.slot.bytes
  let m := (m.dropArray j.c j.slot.uid).undefineArray j.c s
  if s.takeup then m.stopConsumer j.c j.slot.uid else m

/-- A started ARRAY slot faults. -/
def Mach.faultArray (m : Mach) (j : ArrayJob) (st : Status) (detail : Nat) (isl : Nat := 0xFF) : Mach :=
  let r := (parseArray j.slot.bytes).faultRanges
  (m.stopArray j).failSlot j.c j.slot { status := st, detail := detail, range0 := r.1, range1 := r.2, island := isl }

/-! ### Starting (R53 to R59, R75, R91, R93) -/

/-- Die d streams A, and holds B, for some segment and some column (R55, R56). -/
def ArraySlot.activeA (s : ArraySlot) (d : Nat) : Bool :=
  decide (d / 2 < s.nSeg) && (decide (d % 2 = 0) || (!s.paired && decide (16 < s.colsN)))

def ArraySlot.activeB (s : ArraySlot) (d : Nat) : Bool := decide (d / 2 < s.nSeg) && (decide (d % 2 = 0) || decide (16 < s.colsN))

/-- Die d reads index entry p of A, and of B: bytes that a die does not read are not accessed (R55). -/
def ArraySlot.usesA (s : ArraySlot) (d p : Nat) : Bool :=
  s.activeA d && (decide (s.a.outer ≠ some 1) || !s.ta || decide (p / s.segLen % 2 = d / 2))

def ArraySlot.usesB (s : ArraySlot) (d p : Nat) : Bool :=
  s.activeB d && (decide (s.b.outer ≠ some 1) || (if s.tb then decide (p / 16 % 2 = d % 2) else decide (p / s.segLen % 2 = d / 2)))

/-- The index tensors of a slot, each as a die reads it, with the entries that are read. -/
def ArraySlot.indexUses (s : ArraySlot) : List (Td × (Nat → Bool)) :=
  ((List.range 4).map fun d => (s.a.atDie d, s.usesA d)) ++ ((List.range 4).map fun d => (s.b.atDie d, s.usesB d)) ++
    (if s.writeDest then [(s.c, fun _ => true)] else [])

/-- The bytes of the index entries that a slot reads. -/
def ArraySlot.indexReads (s : ArraySlot) : List (Nat × Nat) :=
  s.indexUses.flatMap fun u => if u.1.indexAddr = 0 then []
    else ((List.range (u.1.size u.1.dims)).filter u.2).flatMap fun p => u.1.entryAt (u.1.indexAddr / 2 ^ 29) p

/-- Window and index checks of an ARRAY slot at its start. -/
def Mach.checkArray (m : Mach) (c : CtxId) (s : ArraySlot) : Option (Status × Nat) :=
  if !(m.arrayWindow c s) then some (.windowViolation, 0)
  else match m.badSpadIn s.indexReads with
    | some w => some (.uncorrectable, spadIsland (w * 8))
    | none => (s.indexUses.findSome? fun u => m.badIndexAmong u.1 u.2).map fun p => (.indexOutOfRange, p)

/-- The islands an ARRAY slot works in: the Loom, the scratchpads, the die control and row and column bridge islands, the vector engines
of a take-up stream, and the way from the lower dies to the destination (R9, R10, R14, R58). -/
def ArraySlot.path (s : ArraySlot) : List IslandId :=
  let dies := List.range 4
  loomIslands ++ spadIslands ++ (dies.flatMap fun d => [island (23 * d + 18), island (23 * d + 21), island (23 * d + 22)]) ++
    (if s.takeup then vectorIslands else []) ++
    (if s.writeDest then let e := bits s.c.addr 30 29
      diePath 2 e ++ diePath 3 e else [])

/-- A slot that fails at its start ends there, and takes its consumer with it (R74). -/
def Mach.refuseArray (m : Mach) (c : CtxId) (q : QSlot) (st : Status) (detail isl : Nat) : Mach :=
  let s := parseArray q.bytes
  let m := if s.takeup then m.stopConsumer c q.uid else m
  m.failSlot c q { status := st, detail := detail, range0 := s.faultRanges.1, range1 := s.faultRanges.2, island := isl }

/-- The head ARRAY slot of a context starts (R134): it leaves its queue, and its checks come first. -/
def Mach.startArray (m : Mach) (c : CtxId) (q : QSlot) : Mach :=
  let s := parseArray q.bytes
  let m := (m.takeHead c .array).wake s.path
  match m.loomRefused with
  | some i => m.refuseArray c q .uncorrectable i i
  | none => match m.checkArray c s with
    | some (.uncorrectable, i) =>
      (m.spadUe ((m.badSpadIn s.indexReads).getD 0) (some c)).refuseArray c q .uncorrectable i i
    | some (st, d) => m.refuseArray c q st d 0xFF
    | none =>
      let m := m.readSpads s.indexReads (some c)
      { m with arrays := m.arrays ++ [⟨c, q, 0, s.total m.grade, false, false, [], s.reads.map fun r => (r.1, m.spadRead r.1 r.2)⟩],
               lastLoom := c }

/-- The Loom works: the module is ACTIVE, no rotation after health_clear is under way, no tile is owed, and no island of the path
holds the work back. -/
def Mach.loomOpen (m : Mach) (s : ArraySlot) : Bool :=
  decide (m.pwr.modState = .active) && !m.goose.rotating && !m.tilesOwed loomIslands && m.reachable s.path

/-- The Loom may take the head slot of a context now. -/
def Mach.loomTakes (m : Mach) (c : CtxId) (q : QSlot) : Bool :=
  m.loomFree && m.loomOpen (parseArray q.bytes) && !m.higherReady c q.cls && !m.parkedAhead c q.cls && m.loomTurn c q.cls

/-- Run row steps of a started slot, at most n, until a stall or an error. -/
def Mach.runRows (m : Mach) (c : CtxId) (uid : Nat) : Nat → Mach
  | 0 => m
  | n + 1 =>
    match m.arrays.find? fun j => decide (j.c = c ∧ j.slot.uid = uid) && j.running with
    | none => m
    | some j =>
      match m.rowStep j with
      | .stalled dies => dies.foldl (fun m d => m.cnt 0x1000 (23 * d + 6) (some c)) m
      | .index p => m.faultArray j .indexOutOfRange p
      | .bad w => (m.spadUe w (some c)).faultArray j .uncorrectable (spadIsland (w * 8)) (spadIsland (w * 8))
      | .done m =>
        let m := m.modArray c uid fun j => { j with done := j.done + 1 }
        let m := if j.done + 1 = j.total ∧ (parseArray j.slot.bytes).takeup then
            m.putTakeup { m.takeupOf c uid with whole := true, tainted := j.tainted }
          else m
        Mach.runRows m c uid n

/-- Is a running job to be suspended at the next segment boundary, which every row ends at: higher-class work is ready (R24), or its
consumer can no longer start (R148)? -/
def Mach.suspendDue (m : Mach) (j : ArrayJob) : Bool := m.higherReady j.c (m.classOf j.c) || !m.arrayMayRun j

/-- A parity error in a Loom island (R75): it stops the context's ARRAY instruction, finished or not so long as it has not committed;
otherwise what it struck is a stream that waits in a take-up queue, and its consumer goes. -/
def Mach.loomParity (m : Mach) (c : CtxId) (i : Nat) : Mach :=
  match m.arrays.find? fun j => decide (j.c = c) && !j.suspended with
  | some j => (m.cnt 0x1002 i (some c)).faultArray j .uncorrectable i i
  | none => match m.takeups.find? fun t => decide (t.c = c) && !t.frozen with
    | none => m
    | some t => match m.consumerSlot c t.uid with
      | none => m
      | some q =>
        let v := parseVec q.bytes
        let d := v.dst.span v.dst.addr
        ((m.cnt 0x1002 i (some c)).stopConsumer c t.uid).failSlot c q
          { status := .uncorrectable, detail := i, range0 := if v.noDst then noRange else spadRange d.1 d.2,
            range1 := (v.auxRange.head?.map fun r => spadRange r.1 r.2).getD noRange, island := i }

/-! ### The rows of the table -/

/-- ARRAY (R23, R53 to R75): a ready slot starts under class arbitration; a running one advances by row steps, unless it is due to be
suspended; a parity error of a Loom island stops it. -/
def execArray (c : CtxId) (rows : Nat) (parity : Option IslandId) (s : State) : Host.Outcome State Fault Refusal :=
  runs s fun m =>
    match parity with
    | some i => if i.val < 92 ∧ i.val % 23 < 9 then m.loomParity c i.val else m
    | none =>
      match m.arrayRunning c with
      | some j =>
        if m.suspendDue j ∨ m.tilesOwed loomIslands then m
        else m.over (parseArray j.slot.bytes).path fun m => m.runRows c j.slot.uid rows
      | none =>
        match m.arrayReady c with
        | none => m
        | some q => if m.loomTakes c q then m.startArray c q else m

/-- FROZEN (R181): the slot makes its checks, reads and writes nothing, and commits at its start. -/
def execFrozen (c : CtxId) (s : State) : Host.Outcome State Fault Refusal :=
  runs s fun m =>
    match m.startable c .array with
    | none => m
    | some q =>
      let a := parseArray q.bytes
      if !a.frozen ∨ !m.mayCommit c q ∨ m.arrays.any (fun j => decide (j.c = c) && decide (j.done < j.total)) then m
      else
        let m := m.takeHead c .array
        if !m.arrayWindow c a then m.refuseArray c q .windowViolation 0 0xFF
        else
          let m := m.cnt 0x4000 18 (some c)
          let m := if a.takeup then m.putTakeup ⟨c, q.uid, [], true, true, false, 0, Vector.replicate 4 0⟩ else m
          m.commitSlot c q a.faultRanges

/-- ARRAY_COMMIT (R147): the last write is visible and the last take-up value accepted; the partial region is left undefined
(R58). -/
def execArrayCommit (c : CtxId) (s : State) : Host.Outcome State Fault Refusal :=
  runs s fun m =>
    match m.arrays.find? fun j => decide (j.c = c) && decide (j.done = j.total) && !j.suspended with
    | none => m
    | some j =>
      if !m.mayCommit c j.slot then m
      else
        let a := parseArray j.slot.bytes
        let m := m.dropArray c j.slot.uid
        let m := if j.tainted then m.undefineArray c a
          else a.partials.foldl (fun m r => m.spadUndefine r.1 r.2) m
        m.commitSlot c j.slot a.faultRanges

/-- The 64-byte resume record of R73 on lower die d. -/
def ArrayJob.resumeRecord (j : ArrayJob) (g : Grade) (d : Nat) : Bytes :=
  let (b, h, p, mm) := (parseArray j.slot.bytes).stepAt g j.done
  natLe 64 (b % 2 ^ 32 + h % 2 ^ 16 * 2 ^ 32 + p % 2 ^ 16 * 2 ^ 48 + mm % 2 ^ 16 * 2 ^ 64 + j.slot.seq.toNat * 2 ^ 80 +
    (d - 2) * 2 ^ 96)

/-- Offset of a context's array save area. -/
def Mach.saveArea (m : Mach) (c : CtxId) : Nat := m.num (ctxIdx c 5) 1

/-- The save area lies in the window, at an offset that every die has (R73, R158). -/
def Mach.saveFits (m : Mach) (c : CtxId) : Bool := decide (m.saveArea c < 2 ^ 29) && m.spadInWindow c (m.saveArea c) 65536

/-- ARRAY_SUSPEND (R24, R73, R74, R148). -/
def execArraySuspend (c : CtxId) (s : State) : Host.Outcome State Fault Refusal :=
  runs s fun m =>
    match m.arrayRunning c with
    | none => m
    | some j =>
      if !m.suspendDue j then m
      else
        let o := m.saveArea c
        if !m.saveFits c then m.faultArray j .windowViolation 0
        else
          let m := [2, 3].foldl (fun m d => m.spadWrite (d * 2 ^ 29 + o) (j.resumeRecord m.grade d)) m
          let dies := if (parseArray j.slot.bytes).split then [0, 1, 2, 3] else [2, 3]
          let taken := m.consumerStarted c j.slot.uid
          let m := if taken then
              dies.foldl (fun m d => m.spadUndefine (d * 2 ^ 29 + o + 64) (65536 - 64)) m
            else m
          let put := ([2, 3].map fun d => (d * 2 ^ 29 + o, 64)) ++
            (if taken then dies.map fun d => (d * 2 ^ 29 + o + 64, 65536 - 64) else [])
          let saved := put.map fun r => (r.1, m.spadRead r.1 r.2)
          ((m.cnt 0x1001 52 (some c)).dropBanks c j.slot.uid).modArray c j.slot.uid fun j => { j with suspended := true, saved := saved }

/-- ARRAY_RESUME (R22 to R24, R73): when the Loom is next free for its class; altered save bytes leave its results undefined, and a
window that no longer holds its ranges ends it. -/
def execArrayResume (c : CtxId) (s : State) : Host.Outcome State Fault Refusal :=
  runs s fun m =>
    match m.arrayParked c with
    | none => m
    | some j =>
      let a := parseArray j.slot.bytes
      if !m.loomFree ∨ !m.arrayMayRun j ∨ !m.loomOpen a ∨ m.higherReady c (m.classOf c) ∨ !m.resumeTurn c (m.classOf c) then m
      else
        let m := m.wake a.path
        if !m.arrayWindow c a then m.faultArray j .windowViolation 0
        else
          let same := j.saved.all fun r => decide (m.spadRead r.1 r.2.length = r.2)
          { (m.modArray c j.slot.uid fun j => { j with suspended := false, tainted := j.tainted || !same, saved := [] }) with
            lastLoom := c }

end Sys2Proof.Machine
end

