-- ==== Sys2Proof/Machine/Access.lean ====
section
/-! DEFINITION. Access to the object dictionary: channels and rights (R290, R291, R346), the checks of R347, and the one way
in which a write is applied and answered. -/

namespace Sys2Proof.Machine

open Sys2Proof

/-! ### Channels -/

/-- Number of a channel: contexts 0 to 3, CAN FD 4. -/
def chanNum : Channel → Fin 5
  | .can => 4
  | .qp c => ⟨c.val, by omega⟩

/-- The operator's channel: CAN FD, and the management QPs named by operator_qp_mask (R291). -/
def Mach.isOperator (m : Mach) : Channel → Bool
  | .can => true
  | .qp c => bit (m.num 0x2700 0x11) c.val

/-- The management controller's firmware is running: not in boot, not in a management reset (R374, R388). -/
def Mach.mgmtUp (m : Mach) : Bool := decide (m.pwr.boot = .running) && !m.pwr.mgmtResetting

/-- A channel reaches the dictionary: CAN in a state with USDO and a node ID (R343, R345), a management QP in RTS on a
link that is up (R281). -/
def Mach.chanUp (m : Mach) (ch : Channel) : Bool :=
  m.mgmtUp && match ch with
    | .can => decide (m.mgmt.nodeId ≠ 0) && (decide (m.mgmt.nmt = .preOperational) || decide (m.mgmt.nmt = .operational))
    | .qp c => m.hostUp && decide ((m.ctxs[c]).qps[qMgmt].st = .rts)

/-! ### Rights (R346) -/

/-- The counter an object of 0x2D20 to 0x2D51 belongs to (R362). -/
def counterOf (idx sub : Nat) : Option CounterId :=
  if 0x2D20 ≤ idx ∧ idx < 0x2D60 ∧ idx % 16 < 2 ∧ 1 ≤ sub ∧ sub ≤ 128 then some (Fin.ofNat 256 (idx % 16 * 128 + (sub - 1)))
  else none

/-- Does an object belong to context c (R346)? -/
def Mach.belongs (m : Mach) (idx sub : Nat) (c : CtxId) : Bool :=
  if 0x2800 ≤ idx ∧ idx < 0x2840 then decide (idx / 16 % 16 = c.val)
  else if 0x2720 ≤ idx ∧ idx < 0x27A0 then decide ((idx - 0x2720) / 32 = c.val)
  else if 0x27A0 ≤ idx ∧ idx < 0x27E0 then decide ((idx - 0x27A0) / 16 = c.val)
  else if 0x2B10 ≤ idx ∧ idx < 0x2B14 then decide (idx - 0x2B10 = c.val)
  else if idx = 0x2510 then decide (sub = c.val + 1)
  else if 0x2501 ≤ idx ∧ idx < 0x2505 then decide ((m.foldOf c).map Fin.val = some (idx - 0x2501))
  else match counterOf idx sub with
    | some k => decide ((m.counters[k]).owner.toNat = c.val)
    | none => false

/-- A channel may read an object. -/
def Mach.mayRead (m : Mach) (ch : Channel) (idx sub : Nat) (r : ObjRow) : Bool :=
  m.isOperator ch || match r.own with
    | .const | .pub => true
    | .op => false
    | .ctx => match ch with
      | .can => true
      | .qp c => m.belongs idx sub c

/-- Only the operator's channel configures the management QP (R281). -/
def operatorOnly (idx : Nat) : Bool := decide (0x2720 ≤ idx) && decide (idx < 0x27A0) && decide ((idx - 0x2720) % 32 = 17)

/-- A channel may write an object. operator_qp_mask is written by CAN FD alone (R291). -/
def Mach.mayWrite (m : Mach) (ch : Channel) (idx sub : Nat) (r : ObjRow) : Bool :=
  if idx = 0x2700 ∧ sub = 0x11 then decide (ch = .can)
  else
    m.isOperator ch || (r.tw && !operatorOnly idx && match r.own with
      | .ctx => match ch with
        | .can => true
        | .qp c => m.belongs idx sub c
      | .pub => true
      | _ => false)

/-! ### Abort codes (R347) -/

def abNoObject : Nat := 0x06020000
def abNoSub : Nat := 0x06090011
def abAccess : Nat := 0x06010000
def abWriteOnly : Nat := 0x06010001
def abReadOnly : Nat := 0x06010002
def abLength : Nat := 0x06070010
def abRange : Nat := 0x06090030
def abState : Nat := 0x08000022
def abStore : Nat := 0x08000020
def abIncompatible : Nat := 0x06040047

/-- Checks 1 to 6 of a write (R347). -/
def Mach.checkWrite (m : Mach) (ch : Channel) (idx sub : Nat) (data : Bytes) : Except Nat ObjRow :=
  if !idxExists idx then .error abNoObject
  else match objRow? idx sub with
    | none => .error abNoSub
    | some r =>
      if !m.mayWrite ch idx sub r then .error abAccess
      else if r.acc = .ro ∨ r.acc = .const then .error abReadOnly
      else if !r.ty.fits data.length then .error abLength
      else .ok r

/-- Checks 1 to 4 of a read. -/
def Mach.checkRead (m : Mach) (ch : Channel) (idx sub : Nat) : Except Nat ObjRow :=
  if !idxExists idx then .error abNoObject
  else match objRow? idx sub with
    | none => .error abNoSub
    | some r =>
      if !m.mayRead ch idx sub r then .error abAccess
      else if r.acc = .wo then .error abWriteOnly
      else .ok r

/-! ### Applying a write -/

/-- What the defining chapter makes of a write: done, done but answered by a later command, refused. -/
inductive Wr where
  | ok (m : Mach)
  | later (m : Mach)
  | err (code : Nat)
  deriving DecidableEq, Repr

/-- A value or state check before the rest of a write. -/
def Wr.guard (bad : Bool) (code : Nat) (rest : Wr) : Wr := if bad then .err code else rest

/-- The meaning of a write: the machine, the channel, the value. -/
abbrev Writer := Mach → Channel → Val → Wr

/-- Store the value in the dictionary. -/
def wrStore (idx sub : Nat) : Writer := fun m _ v => .ok (m.setObj idx sub v)

/-- BOOLEAN objects take 0 or 1; a 0 written to a wo BOOLEAN has no effect (R348). -/
def boolGate (r : ObjRow) (w : Writer) : Writer := fun m ch v =>
  if r.ty = .bool ∧ 1 < v.toNum then .err abRange
  else if r.ty = .bool ∧ r.acc = .wo ∧ v.toNum = 0 then .ok m
  else w m ch v

/-- Send an answer: on a management QP it is a SEND of its own, outstanding until RC acknowledges it (R290). -/
def Mach.reply (m : Mach) (o : Out) : Mach :=
  match o with
  | .mgmtResponse c msg =>
    ((m.modQp c qMgmt fun p => { p with outstanding := p.outstanding ++ [.mgmt msg] }).psnTx c qMgmt msg.length).send o
  | o => m.send o

/-- The answer that a write put off gets once it is done, in place of the plain one: a window object's write (R82, R87), or the
store's (R349). -/
def Mach.answerLater (m : Mach) (idx : Nat) (o : Out) : Mach :=
  if idx = 0x1010 then m.modMgmt fun g => { g with store := g.store.map fun (k : Store) => { k with answer := o } }
  else m.modCtx (Fin.ofNat 4 (idx / 16)) fun x => { x with windowPending := x.windowPending.map fun w => (o, w.2) }

/-- A refused request: counted in usdo_abort, answered by the given function (R347). -/
def Mach.refused (m : Mach) (answer : Nat → Out) (code : Nat) : Mach := (m.cnt 0xF005 133).reply (answer code)

/-- An accepted write on the operator's channel is logged (R365, 0xFE08). -/
def Mach.logWrite (m : Mach) (ch : Channel) (idx sub : Nat) (data : Bytes) : Mach :=
  if m.isOperator ch then
    m.logAdd 0xFE08 0 0 (natLe 2 idx ++ natLe 1 sub ++ natLe 1 (chanNum ch).val ++ data.take 16)
  else m

/-- A write through the checks of R347, by a writer, answered by a function of the abort code (0: success). -/
def Mach.writeWith (m : Mach) (ch : Channel) (idx sub : Nat) (data : Bytes) (w : Writer) (answer : Nat → Out) : Mach :=
  match m.checkWrite ch idx sub data with
  | .error e => m.refused answer e
  | .ok r => match boolGate r w m ch (r.ty.value data) with
    | .err e => m.refused answer e
    | .ok m' => (m'.logWrite ch idx sub data).reply (answer 0)
    | .later m' => (m'.logWrite ch idx sub data).answerLater idx (answer 0)

/-- The plain answer of a write. -/
def wroteOut (ch : Channel) (idx sub : Nat) (code : Nat) : Out := .wrote ch idx sub (BitVec.ofNat 32 code)

/-- A dictionary write as a command of its own: nothing where the channel does not reach the dictionary. -/
def Mach.dictWrite (m : Mach) (ch : Channel) (idx sub : Nat) (data : Bytes) (w : Writer) : Mach :=
  if m.chanUp ch then m.writeWith ch idx sub data w (wroteOut ch idx sub) else m

/-- A write in which only 1 acts and that acts at once. -/
def one : Bytes := [1]

end Sys2Proof.Machine
end

