-- ==== Sys2Proof/Machine/Bpm.lean ====
section
/-! DEFINITION. The buffer pool manager (R107 to R114): pools, reservations, allocation, waiting requests. -/

namespace Sys2Proof.Machine

open Sys2Proof

/-! ### Pools -/

/-- Requester numbers (R110). -/
def rqCtx (c : CtxId) : Requester := ⟨c.val, by omega⟩
def rqShuttle : Requester := 4
def rqMove : Requester := 5
def rqDrover : Requester := 6

/-- Buffer size of a pool. -/
def Pool.size (p : Pool) : Nat := 2 ^ p.sizeLog2

/-- Buffers on the free list. -/
def Pool.freeNow (p : Pool) : Nat :=
  (p.count - p.fresh) - (p.quarantined.filter fun i => decide (p.fresh ≤ i)).length + p.freed.length

/-- Buffers set aside by reservations. -/
def Pool.setAside (p : Pool) : Nat := (p.reserved.map Prod.snd).sum

/-- Buffers a requester holds, allocated plus reserved. -/
def Pool.held (p : Pool) (r : Requester) : Nat :=
  (p.alloc.filter fun e => decide (e.2.owner = r)).length + Sparse.get 0 r.val p.reserved

/-- Quota of a requester in a pool (R111). -/
def Mach.quota (m : Mach) (p : PoolId) (r : Requester) : Nat := m.num (0x29C0 + p.val) (16 + r.val)

/-- A reservation of n buffers could be granted: n are free and the quota allows n more (R111). -/
def Mach.bpmFits (m : Mach) (p : PoolId) (r : Requester) (n : Nat) : Bool :=
  let q := m.pools[p]
  decide (q.memory ≠ 0) && decide (n + q.setAside ≤ q.freeNow) && decide (q.held r + n ≤ m.quota p r)

/-- Track free_low_water. -/
def Pool.mark (p : Pool) : Pool := { p with lowWater := min p.lowWater (p.freeNow - p.setAside) }

/-- Set aside n buffers. -/
def Mach.bpmReserve (m : Mach) (p : PoolId) (r : Requester) (n : Nat) : Mach :=
  m.modPool p fun q => { q with reserved := Sparse.modify 0 r.val (· + n) q.reserved }.mark

/-- Return n buffers of a reservation. -/
def Mach.bpmReturn (m : Mach) (p : PoolId) (r : Requester) (n : Nat) : Mach :=
  m.modPool p fun q => { q with reserved := Sparse.modify 0 r.val (· - n) q.reserved }

/-- Allocate one buffer against a reservation, with a reference count: the head of the free list (R110, R111). -/
def Mach.bpmAlloc (m : Mach) (p : PoolId) (r : Requester) (refs : Nat) : Mach × Option Nat :=
  let q := m.pools[p]
  let take := fun (i : Nat) (q : Pool) =>
    { q with alloc := Sparse.put i ⟨r, refs⟩ q.alloc, reserved := Sparse.modify 0 r.val (· - 1) q.reserved }.mark
  let fresh := ((List.range (q.count - q.fresh)).map (q.fresh + ·)).find? fun i => !q.quarantined.contains i
  match fresh, q.freed with
  | some i, _ => (m.modPool p fun q => take i { q with fresh := i + 1 }, some i)
  | none, [] => (m, none)
  | none, i :: rest => (m.modPool p fun q => take i { q with freed := rest }, some i)

/-- A consumer is done with a buffer: at count 0 it joins the tail of the free list (R110), unless it is quarantined. -/
def Pool.drop (q : Pool) (i : Nat) : Pool :=
  match Sparse.find i q.alloc with
  | none => q
  | some b =>
    if 1 < b.refs then { q with alloc := Sparse.put i { b with refs := b.refs - 1 } q.alloc }
    else
      let q := { q with alloc := Sparse.erase i q.alloc }
      if q.quarantined.contains i then q else { q with freed := q.freed ++ [i] }

/-- Free a buffer outright. -/
def Mach.bpmFree (m : Mach) (p : PoolId) (i : Nat) : Mach :=
  m.modPool p fun q => match Sparse.find i q.alloc with
    | some b => { q with alloc := Sparse.put i { b with refs := 1 } q.alloc }.drop i
    | none => q

/-- Ask for a reservation: granted at once where nobody waits and it fits, otherwise it waits (R112). True where granted. -/
def Mach.bpmAsk (m : Mach) (p : PoolId) (q : BpmReq) : Mach × Bool :=
  if (m.pools[p]).waiting = [] ∧ m.bpmFits p q.who q.n then (m.bpmReserve p q.who q.n, true)
  else (m.modPool p fun x => { x with waiting := x.waiting ++ [q] }, false)

/-- Withdraw waiting requests. -/
def Mach.bpmWithdraw (m : Mach) (p : BpmWhy → Bool) : Mach :=
  { m with pools := m.pools.map fun q => { q with waiting := q.waiting.filter fun r => !p r.why } }

/-- Everything a requester holds in every pool returns (R151). -/
def Mach.bpmReleaseAll (m : Mach) (r : Requester) : Mach :=
  { m with pools := m.pools.map fun q =>
      let mine := q.alloc.filterMap fun e => if e.2.owner = r then some e.1 else none
      let back := mine.filter fun i => !q.quarantined.contains i
      { q with alloc := q.alloc.filter fun e => !decide (e.2.owner = r), freed := q.freed ++ back,
               reserved := Sparse.set 0 r.val 0 q.reserved, waiting := q.waiting.filter fun w => !decide (w.who = r) } }

/-- Pool definitions as they are latched at a datapath reset, when every buffer is free (R107). DESIGN CHOICE: a scratchpad pool that
no longer lies in its region, because a smaller spad_pool_region has taken effect, is latched as defined (log 67). -/
def Mach.poolDefine (m : Mach) (p : PoolId) : Pool :=
  let i := 0x29C0 + p.val
  let n := m.num i 3
  { memory := m.num i 1, sizeLog2 := m.num i 2, count := n, base := m.num i 4, fresh := 0, freed := [], alloc := [],
    reserved := [], waiting := [], quarantined := [], lowWater := n }

/-- Every pool starts afresh. -/
def Mach.poolsReset (m : Mach) : Mach := { m with pools := Vector.ofFn fun p => m.poolDefine p }

end Sys2Proof.Machine
end

