-- ==== Sys2Proof/Machine/Fabric.lean ====
section
/-! DEFINITION. Fabric packets as their sources and consumers see them (R242 to R245, R247, R255, R265): header fields,
checks, ranks and coordinates, route lookup, injection. -/

namespace Sys2Proof.Machine

open Sys2Proof

/-! ### The packet header (R242) -/

/-- Header fields, each as a number; `hops` to `bseq` are the hop fields. -/
structure Hdr where
  epoch : Nat := 0
  fold : Nat := 0
  tag : Nat := 0
  length : Nat := 0
  ty : Nat := 0
  cls : Nat := 0
  ctx : Nat := 0
  fence : Bool := false
  cmEcho : Bool := false
  rbank : Bool := false
  status : Nat := 0
  addr : Nat := 0
  dram : Bool := false
  dst : Coord := 0
  src : Coord := 0
  token : Nat := 0
  reserved : Nat := 0
  hops : Nat := 0
  sub : Nat := 0
  cm : Bool := false
  bseq : Nat := 0
  deriving DecidableEq, Repr

/-- Packet types. -/
def tyPut : Nat := 0
def tyGet : Nat := 1
def tyGetRsp : Nat := 2
def tyAck : Nat := 3
def tyBobbin : Nat := 4
def tyToken : Nat := 5
def tyMgt : Nat := 6

/-- Packet classes. -/
def clsReq : Nat := 0
def clsRsp : Nat := 1
def clsCol : Nat := 2
def clsBulk : Nat := 3
def clsMgt : Nat := 4

/-- One bit as a number. -/
def b2n (b : Bool) : Nat := if b then 1 else 0

/-- The 256 bits of a header with a given CRC. -/
def Hdr.pack (h : Hdr) (crc : Nat) : BitVec 256 :=
  BitVec.ofNat 256 (place h.bseq 20 9 + place (b2n h.cm) 21 21 + place h.sub 23 22 + place h.hops 32 24 +
    place h.reserved 44 33 + place h.token 62 45 + place h.src.toNat 80 63 + place h.dst.toNat 98 81 +
    place (b2n h.dram) 99 99 + place h.addr 143 100 + place h.status 151 144 + place (b2n h.rbank) 152 152 +
    place (b2n h.cmEcho) 153 153 + place (b2n h.fence) 154 154 + place h.ctx 156 155 + place h.cls 159 157 +
    place h.ty 162 160 + place h.length 175 163 + place h.tag 191 176 + place h.fold 207 192 + place h.epoch 223 208 +
    place crc 255 224)

/-- The header fields of a packet. -/
def hdrOf (p : Packet) : Hdr :=
  let n := p.hdr.toNat
  { epoch := bits n 223 208, fold := bits n 207 192, tag := bits n 191 176, length := bits n 175 163, ty := bits n 162 160,
    cls := bits n 159 157, ctx := bits n 156 155, fence := bit n 154, cmEcho := bit n 153, rbank := bit n 152,
    status := bits n 151 144, addr := bits n 143 100, dram := bit n 99, dst := BitVec.ofNat 18 (bits n 98 81),
    src := BitVec.ofNat 18 (bits n 80 63), token := bits n 62 45, reserved := bits n 44 33 + bits n 8 0,
    hops := bits n 32 24, sub := bits n 23 22, cm := bit n 21, bseq := bits n 20 9 }

/-- pkt_crc: over header bytes 0 to 27 with bits [32:0] taken as zero, then the payload (R245). -/
def pktCrc (hdr : BitVec 256) (payload : Bytes) : BitVec 32 :=
  crc32 (natLe 28 (hdr.toNat % 2 ^ 224 / 2 ^ 33 * 2 ^ 33) ++ payload)

/-- A packet with its CRC. -/
def mkPacket (h : Hdr) (payload : Bytes) : Packet :=
  let crc := (pktCrc (h.pack 0) payload).toNat
  ⟨h.pack crc, payload⟩

/-- The CRC of a packet is right. -/
def pktCrcOk (p : Packet) : Bool := decide (p.hdr.toNat / 2 ^ 224 = (pktCrc p.hdr p.payload).toNat)

/-- Payload bytes a header announces: none for GET (R243). -/
def Hdr.payload (h : Hdr) : Nat := if h.ty = tyGet then 0 else h.length

/-- Flits of a packet (R243). -/
def pktFlits (p : Packet) : Nat := cdiv (32 + p.payload.length) 64

/-- The VC of a class and sub (R247). -/
def vcOf (cls sub : Nat) : Option VcId :=
  if cls ≤ 2 ∧ sub ≤ 1 then some (Fin.ofNat 8 (2 * cls + sub))
  else if cls = clsBulk ∧ sub = 2 then some 6
  else if cls = clsMgt ∧ sub = 2 then some 7
  else none

/-- Sub of an injected packet: lo, or flat for BULK and MGT (R255). -/
def injectSub (cls : Nat) : Nat := if cls = clsBulk ∨ cls = clsMgt then 2 else 0

/-! ### Routing (R255, R256) -/

/-- Index of a route entry. -/
def entryIndex (bank : Bool) (sub : Nat) (d : Coord) : Nat :=
  ((b2n bank * 3 + sub) * 16 + d.x) * 16384 + d.y * 256 + d.z

/-- A route entry; unwritten entries are UNREACHABLE. -/
def Mach.routeEntry (m : Mach) (bank : Bool) (sub : Nat) (d : Coord) : Nat :=
  (Sparse.get (0x0C : BitVec 8) (entryIndex bank sub d) m.net.routes).toNat

/-- out_sub and bundle of an entry. -/
def outSub (e : Nat) : Nat := bits e 3 2
def outBundle (e : Nat) : BundleId := Fin.ofNat 16 (bits e 7 4)

/-- A rebuild is under way and has not lasted longer than route_rebuild_timeout: a packet without a route waits (R260). -/
def Net.routeWait (n : Net) : Bool := n.rebuilding && !n.timedOut

/-- A source can reach a destination with a class of packet: it is the module itself, has a route, or may yet get one from
the rebuild under way (R256, R260). -/
def Mach.canReach (m : Mach) (cls : Nat) (d : Coord) : Bool :=
  decide (d = m.net.own) || decide (outSub (m.routeEntry m.net.bank (injectSub cls) d) ≠ 3) || m.net.routeWait

/-- A packet of a local engine as it is injected (R255: rbank and sub are set at injection). -/
def Mach.held (m : Mach) (h : Hdr) (payload : Bytes) : List Held :=
  let h := { h with rbank := m.net.bank, sub := injectSub h.cls, src := m.net.own, hops := 0, cm := false, bseq := 0 }
  match vcOf h.cls h.sub with
  | some v => [⟨v, mkPacket h payload⟩]
  | none => []

/-- Hand a packet of a local engine to the crossbar. -/
def Mach.inject (m : Mach) (h : Hdr) (payload : Bytes) : Mach :=
  m.modNet fun n => { n with inject := n.inject ++ m.held h payload }

/-- Send a management message (R244); its bytes are not given (log 7). -/
def Mach.mgtTo (m : Mach) (d : Coord) (kind n : Nat) (fields : List Nat) : Mach :=
  let b := (Config.layout kind n fields).take 4096
  m.inject { ty := tyMgt, cls := clsMgt, dst := d, length := b.length } b

/-! ### Ranks (R265, R266, R268) -/

/-- A rank map entry as a number, 0 beyond its end. -/
def Fold.entry (f : Fold) (r : Nat) : Nat := getLe f.rankMap (8 * r) 8

/-- Coordinates and role epoch of a rank, where its entry is valid. -/
def Fold.rank (f : Fold) (r : Nat) : Option (Coord × Nat) :=
  let e := f.entry r
  if bit e 31 then some (BitVec.ofNat 18 (bits e 17 0), bits e 47 32) else none

/-- Ranks of a committed map. -/
def Fold.ranks (f : Fold) : Nat := f.rankMap.length / 8

/-- The rank of coordinates in a map. -/
def Fold.rankAt (f : Fold) (p : Coord) : Option Nat :=
  (List.range f.ranks).find? fun r => match f.rank r with
    | some e => decide (e.1 = p)
    | none => false

/-- The fold of a context. -/
def Mach.ctxFold (m : Mach) (c : CtxId) : Option Fold := (m.foldOf c).map fun f => m.net.folds[f]

/-- Coordinates and epoch of a rank of a context's fold. -/
def Mach.rankOf (m : Mach) (c : CtxId) (r : Nat) : Option (Coord × Nat) := (m.ctxFold c).bind fun f => f.rank r

/-- The module's own rank in a context's fold. -/
def Mach.ownRank (m : Mach) (c : CtxId) : Option Nat := (m.ctxFold c).bind fun f => f.rankAt m.net.own

/-- The module's own role epoch in a fold ID, if it holds a rank there (R268). -/
def Mach.ownEpoch (m : Mach) (fold : Nat) : Option Nat :=
  match m.ctxOfFold fold with
  | none => none
  | some c => match m.ownRank c with
    | none => none
    | some r => (m.rankOf c r).map Prod.snd

/-- The context that a fold ID names, where the module holds a rank in that fold; without one it answers as having no context
for it (R268). -/
def Mach.memberCtx (m : Mach) (fold : Nat) : Option CtxId :=
  match m.ctxOfFold fold with
  | some c => if (m.ownRank c).isSome then some c else none
  | none => none

/-- Traffic of a context's fold flows: READY or ACCEPTED (R269). -/
def Mach.foldFlows (m : Mach) (c : CtxId) : Bool :=
  match m.ctxFold c with
  | some f => decide (f.st = .ready) || decide (f.st = .accepted)
  | none => false

/-- A context's fold has no plan, or the context has no fold: its fabric slots fail with LINK_LOST (R269). -/
def Mach.unplanned (m : Mach) (c : CtxId) : Bool :=
  match m.ctxFold c with
  | some f => decide (f.st = .unplanned)
  | none => true

/-! ### Answers -/

/-- The ACK of a packet, with a status (R242, R244, R262). -/
def ackHdr (h : Hdr) (status : Nat) : Hdr :=
  { epoch := h.epoch, fold := h.fold, tag := h.tag, ty := tyAck, cls := clsRsp, ctx := h.ctx, cmEcho := h.cm,
    status := status, dst := h.src }

/-- Answer a packet with an ACK. -/
def Mach.ack (m : Mach) (h : Hdr) (status : Nat) : Mach := m.inject (ackHdr h status) []

/-- Answer a GET with its data. -/
def Mach.getRsp (m : Mach) (h : Hdr) (data : Bytes) : Mach :=
  m.inject { epoch := h.epoch, fold := h.fold, tag := h.tag, length := data.length, ty := tyGetRsp, cls := clsRsp,
             ctx := h.ctx, cmEcho := h.cm, dst := h.src } data

/-! ### Delivered packets -/

/-- A delivered packet leaves the input buffer it held: its credit is owed (R248). -/
def Mach.owed (m : Mach) (r : Rx) : Mach :=
  match r.via with
  | some (l, v) => m.modLink l fun k => { k with owed := Vec.upd k.owed v (· + pktFlits r.pkt) }
  | none => m

/-- Take the oldest delivered packet that satisfies a predicate. -/
def takeFirst {α : Type} (p : α → Bool) : List α → Option (α × List α)
  | [] => none
  | x :: rest => if p x then some (x, rest) else (takeFirst p rest).map fun r => (r.1, x :: r.2)

/-- The oldest delivered packet of a kind, taken out of the local buffer. -/
def Mach.takeLocal (m : Mach) (p : Hdr → Bool) : Option (Packet × Mach) :=
  (takeFirst (fun k : Rx => p (hdrOf k.pkt)) m.net.localRx).map fun r =>
    (r.1.pkt, (m.modNet fun n => { n with localRx := r.2 }).owed r.1)

end Sys2Proof.Machine
end

