-- ==== Sys2Proof/Machine/Cow.lean ====
section
/-! DEFINITION. DRAM writes under the snapshot patch map (R299): a write to an uncopied patch is held until the Drover has
copied the patch. -/

namespace Sys2Proof.Machine

open Sys2Proof

/-- Bytes of a patch. -/
def patchBytes : Nat := 2 ^ 21

/-- A range touches a patch that a FROZEN local slot has not copied yet. -/
def Mach.patchHeld (m : Mach) (a n : Nat) : Bool :=
  decide (n ≠ 0) && m.drover.slots.toList.any fun s => decide (s.st = .frozen) && s.uncopied.any fun e =>
    decide (e.1 * patchBytes < a + n) && decide (a < (e.1 + 1) * patchBytes)

/-- A write must be held: an uncopied patch, or an earlier held write to the same bytes. -/
def Mach.mustHold (m : Mach) (a n : Nat) : Bool :=
  m.patchHeld a n || m.drover.heldWrites.any fun w => decide (a < w.addr + w.data.length) && decide (w.addr < a + n)

/-- Perform a DRAM write now; the uncorrectable unit that it covers only in part stops it (R85). -/
def Mach.dramStore (m : Mach) (a : Nat) (b : Bytes) (c : Option CtxId) : Mach × Option Nat :=
  match m.dramPartBad a b.length with
  | some u => (m.dramUe u c, some u)
  | none => ((m.mergeDram a b.length c).dramPut a b, none)

/-- Send what a finished write owes: packets to the crossbar, messages to the host. -/
def Mach.payOut (m : Mach) (reply : List Held) (out : List Out) : Mach :=
  out.foldl Mach.send (m.modNet fun n => { n with inject := n.inject ++ reply })

/-- A DRAM write of a context: held where R299 says so and counted in drover_cow_stall, otherwise performed and answered. The
uncorrectable unit that stops it is answered to the caller. -/
def Mach.dramWrite (m : Mach) (a : Nat) (b : Bytes) (c : Option CtxId) (owner : Option (CtxId × Nat)) (reply : List Held := [])
    (out : List Out := []) : Mach × Option Nat :=
  if m.mustHold a b.length then
    let m := m.cnt 0xC001 130 c
    ({ m with drover := { m.drover with heldWrites := m.drover.heldWrites ++ [⟨a, b, owner, reply, out⟩] } }, none)
  else
    match m.dramStore a b c with
    | (m, none) => (m.payOut reply out, none)
    | r => r

/-- Leave a DRAM range undefined, but for patches that no write has reached yet. -/
def Mach.dramScramble (m : Mach) (a n : Nat) : Mach := if m.patchHeld a n then m else m.dramUndefine a n

/-- Held writes of a slot are dropped with it. -/
def Mach.dropHeld (m : Mach) (c : CtxId) (uid : Nat) : Mach :=
  { m with drover := { m.drover with heldWrites := m.drover.heldWrites.filter fun w => !decide (w.owner = some (c, uid)) } }

end Sys2Proof.Machine
end

