-- ==== Sys2Proof/Machine/Move.lean ====
section
/-! DEFINITION. The MOVE engine (R94 to R106): start checks, pieces, packets and their congestion windows, host messages,
completion. -/

namespace Sys2Proof.Machine

open Sys2Proof

/-! ### Places (R90, R93, R94) -/

/-- Index function from captured index values. -/
def ixOf (l : List Nat) (p : Nat) : Nat := if l = [] then p else l.getD p 0

/-- Address of source row r. -/
def MoveJob.srcRow (j : MoveJob) (s : MoveSlot) (r : Nat) : Nat := s.src.rowAddr (ixOf j.srcIx) s.srcBase r

/-- Address of destination row r. -/
def MoveJob.dstRow (j : MoveJob) (s : MoveSlot) (r : Nat) : Nat := s.dst.rowAddr (ixOf j.dstIx) s.dstBase r

/-- Host virtual address of an endpoint (R122). -/
def Td.hostVa (t : Td) : Nat := t.addr + t.indexAddr * 2 ^ 32

/-- Row bytes R of a slot: those of the endpoint that is no host form. -/
def MoveSlot.rowLen (s : MoveSlot) : Nat := if s.ends.1 = .host then s.dst.rowBytes else s.src.rowBytes

/-- Rows of a slot. -/
def MoveSlot.rows (s : MoveSlot) : Nat := s.dst.rows

/-- The destination is indirect: the slot is not cut (R96). -/
def MoveSlot.uncut (s : MoveSlot) : Bool := decide (s.ends.2 ≠ .host) && decide (s.dst.indexAddr ≠ 0)

/-! ### Pieces (R96, R100, R101) -/

/-- A part of a row: row, byte offset, length. -/
structure Seg where
  row : Nat
  off : Nat
  len : Nat
  deriving DecidableEq, Repr

/-- A row cut into parts of at most k bytes. -/
def cutRow (len k r : Nat) : List Seg :=
  (List.range (cdiv len k)).map fun i => ⟨r, i * k, min k (len - i * k)⟩

/-- Rows per piece of 64 KiB. -/
def MoveSlot.perPiece (s : MoveSlot) : Nat := max 1 (65536 / s.rowLen)

/-- Packets in one GET window (log 17). -/
def getWindow : Nat := 16

/-- Number of pieces of a slot. -/
def MoveSlot.pieces (s : MoveSlot) : Nat :=
  if s.uncut then 1
  else if s.rowLen ≤ 65536 then cdiv s.rows s.perPiece
  else s.rows * cdiv s.rowLen 65536

/-- The parts of rows that piece k holds, in linear order. -/
def MoveSlot.piece (s : MoveSlot) (k : Nat) : List Seg :=
  let n := s.rowLen
  if s.uncut then (List.range s.rows).map fun r => ⟨r, 0, n⟩
  else if n ≤ 65536 then
    (List.range (min s.perPiece (s.rows - k * s.perPiece))).map fun i => ⟨k * s.perPiece + i, 0, n⟩
  else
    let q := cdiv n 65536
    let o := k % q * 65536
    [⟨k / q, o, min 65536 (n - o)⟩]

/-- The packets of up to 4 KiB that the parts of a piece go in (R100, R242). -/
def packetsOf (segs : List Seg) : List Seg :=
  segs.flatMap fun g => (cutRow g.len 4096 g.row).map fun p => { p with off := g.off + p.off }

/-- Windows that a piece of a GET is issued in (R101). -/
def MoveSlot.windows (s : MoveSlot) (k : Nat) : Nat := cdiv (packetsOf (s.piece k)).length getWindow

/-- Packets of window w of a piece of a GET. -/
def MoveSlot.window (s : MoveSlot) (k w : Nat) : List Seg := ((packetsOf (s.piece k)).drop (w * getWindow)).take getWindow

/-- Bytes of parts. -/
def segBytes (l : List Seg) : Nat := (l.map Seg.len).sum

/-! ### Reading and writing one part -/

/-- Read a part of the local source: its bytes, or the island of an uncorrectable error (R80, R85). -/
def Mach.readSeg (m : Mach) (c : CtxId) (j : MoveJob) (s : MoveSlot) (g : Seg) : Mach × Except Nat Bytes :=
  let a := j.srcRow s g.row + g.off
  if s.ends.1.isDram then m.fetchDram a g.len (some c) else m.fetchSpad a g.len (some c)

/-- One element added on arrival (R98): the sum's bits, and whether an INT32 sum wrapped. -/
def accElem (f : Fmt) (old new : Nat) : Nat × Bool :=
  if f = .int32 then
    let v := signed 32 old + signed 32 new
    ((old + new) % 2 ^ 32, decide (v < -2147483648) || decide (2147483647 < v))
  else ((Fmt.encode .fp32 none ((Fmt.decode .fp32 old).add (Fmt.decode .fp32 new))).bits, false)

/-- Add bytes to scratchpad elements of 4 bytes. -/
def Mach.accumulate (m : Mach) (c : CtxId) (f : Fmt) (a : Nat) (b : Bytes) : Mach :=
  let k := b.length / 4
  let es := (List.range k).map fun i => accElem f (leNat (m.spadRead (a + 4 * i) 4)) (getLe b (4 * i) 4)
  (m.spadWrite a (es.flatMap fun e => natLe 4 e.1)).cnt 0xB000 129 (some c) (es.filter Prod.snd).length

/-- Put bytes into the scratchpad destination, written or added; the island of an uncorrectable error that stops it (R80, R85,
R98). -/
def Mach.landSpad (m : Mach) (c : CtxId) (s : MoveSlot) (a : Nat) (b : Bytes) : Mach × Option Nat :=
  if s.acc then
    match m.fetchSpad a b.length (some c) with
    | (m, .error i) => (m, some i)
    | (m, .ok _) => (m.accumulate c s.dst.format a b, none)
  else m.spadStore a b (some c)

/-- Write or add a part of the local destination; the island of an uncorrectable error that stops it (R85). -/
def Mach.writeSeg (m : Mach) (c : CtxId) (uid : Nat) (j : MoveJob) (s : MoveSlot) (g : Seg) (b : Bytes) : Mach × Option Nat :=
  let a := j.dstRow s g.row + g.off
  let m := m.cnt 0xB005 129 (some c) b.length
  if s.ends.2.isDram then
    match m.dramWrite a b (some c) (some (c, uid)) with
    | (m, some u) => (m, some (dramIsland (u * 64)))
    | (m, none) => (m, none)
  else
    m.landSpad c s a b

/-! ### The path of a transfer (R9 to R11) -/

/-- Islands between the crossbar and n bytes of an endpoint: a remote one lies behind the crossbar, which the packets cross. -/
def endPath (e : EndAt) (a n : Nat) : List IslandId :=
  match e with
  | .spad => spadPath a n
  | .dram => dramPath a n
  | .host => hostPath
  | _ => [126]

/-- Islands that moving some parts needs: MOVE, the crossbar, and for each part the bridges, scratchpad banks and memory
controllers of both its ends. A COPY within one die crosses its hub bridge in both directions. -/
def MoveJob.path (j : MoveJob) (s : MoveSlot) (segs : List Seg) : List IslandId :=
  129 :: segs.flatMap fun g => endPath s.ends.1 (j.srcRow s g.row + g.off) g.len ++ endPath s.ends.2 (j.dstRow s g.row + g.off) g.len

/-! ### Jobs -/

/-- Find a job. -/
def Mach.moveJob (m : Mach) (c : CtxId) (uid : Nat) : Option MoveJob :=
  m.mv.jobs.find? fun j => decide (j.c = c ∧ j.slot.uid = uid)

/-- Change a job. -/
def Mach.modMove (m : Mach) (c : CtxId) (uid : Nat) (f : MoveJob → MoveJob) : Mach :=
  { m with mv := { m.mv with jobs := m.mv.jobs.map fun j => if j.c = c ∧ j.slot.uid = uid then f j else j } }

/-- The owner of packets has ended: those not yet released go with it; the others stay until they are answered, since a later FENCE packet
waits for them (R261). -/
def leaveFlights (owner : FlightOwner) (move : Bool) (l : List Flight) : List Flight :=
  l.filterMap fun f => if f.owner ≠ owner then some f else if f.held then none else some { f with owner := .orphan move }

/-- Remove a job with its held writes, its buffers and its packets; of those already sent nobody awaits the answer, but a FENCE behind
them still does (R261). -/
def Mach.dropMove (m : Mach) (j : MoveJob) : Mach :=
  let s := parseMove j.slot.bytes
  let m := { m with mv := { m.mv with
    jobs := m.mv.jobs.filter fun (k : MoveJob) => !decide (k.c = j.c ∧ k.slot.uid = j.slot.uid),
    flights := leaveFlights (.slot j.c j.slot.uid) true m.mv.flights } }
  let m := (m.dropHeld j.c j.slot.uid).bpmWithdraw fun w =>
    decide (w = BpmWhy.get j.c j.slot.uid) || decide (w = BpmWhy.host j.c j.slot.uid)
  if s.ty = some .get then m.bpmReturn 0 (rqCtx j.c) j.reserved else m.bpmReturn 1 rqMove j.reserved

/-- Fault range of a MOVE slot: its destination (R155). -/
def MoveSlot.faultRange (s : MoveSlot) : FaultRange :=
  let d := s.dst.span s.dstBase
  match s.ends.2 with
  | .spad => spadRange d.1 d.2
  | .dram => dramRange d.1 d.2
  | .host => noRange
  | _ => remoteRange s.far d.1 d.2

/-- Leave a local destination undefined. -/
def Mach.undefineMove (m : Mach) (j : MoveJob) : Mach :=
  let s := parseMove j.slot.bytes
  match s.ends.2 with
  | .spad => (List.range s.rows).foldl (fun m r => m.spadUndefine (j.dstRow s r) s.rowLen) m
  | .dram => (List.range s.rows).foldl (fun m r => m.dramScramble (j.dstRow s r) s.rowLen) m
  | _ => m

/-- A started slot stops: its destination is undefined (R150). -/
def Mach.stopMove (m : Mach) (j : MoveJob) : Mach := (m.dropMove j).undefineMove j

/-- A started slot faults. -/
def Mach.failMove (m : Mach) (j : MoveJob) (st : Nat) (detail : Nat) (isl : Nat := islandOf st detail) : Mach :=
  let s := parseMove j.slot.bytes
  let ord := (m.ctxs[j.c]).words.any fun w => decide (w.uid = j.slot.uid) && w.isOrdered
  (m.stopMove j).faultCtx j.c ⟨BitVec.ofNat 8 st, BitVec.ofNat 32 detail, j.slot.eng.num.val, j.slot.seq,
    BitVec.ofNat 12 (emitId (ctlOf j.slot.bytes)), j.slot.step, ord, s.faultRange, noRange, BitVec.ofNat 8 isl, m.now⟩

/-- End every job that a transport has failed. -/
def Mach.endFailed (m : Mach) : Mach :=
  m.mv.jobs.foldl (fun m j => match j.failed with
    | some (st, d) => m.failMove j st.toNat d.toNat
    | none => m) m

/-! ### Start (R94, R96, R97, R103, R289) -/

/-- The window check of a local endpoint (R91, R97). A remote one is checked at the other module; here only that no row lies outside
the addresses a packet can name: such addresses do not exist there either (R84, R93). -/
def Mach.endInWindow (m : Mach) (c : CtxId) (t : Td) (e : EndAt) (base : Nat) : Bool :=
  let p := t.span base
  match e with
  | .spad => m.spanInWindow c t
  | .dram => decide (0 ≤ (base : Int) + t.spanRel.1) && m.dramInWindow c p.1 p.2
  | .remoteSpad => t.inDie
  | .remoteDram => decide (0 ≤ (base : Int) + t.spanRel.1) && decide ((base : Int) + t.spanRel.2 < 2 ^ 44)
  | .host => true

/-- The index tensors of the endpoints that have one; a host form has none (R122). -/
def MoveSlot.indexed (s : MoveSlot) : List Td :=
  (if s.ends.1 = .host then [] else [s.src]) ++ (if s.ends.2 = .host then [] else [s.dst])

/-- The checks of R97: windows, then every index. -/
def Mach.checkMove (m : Mach) (c : CtxId) (s : MoveSlot) : Option (Status × Nat) :=
  let e := s.ends
  let far := fun (k : EndAt) => if k = .remoteSpad ∨ k = .remoteDram then 1 else 0
  if !(m.endInWindow c s.src e.1 s.srcBase) then some (.windowViolation, far e.1)
  else if !(m.endInWindow c s.dst e.2 s.dstBase) then some (.windowViolation, far e.2)
  else if !(s.indexed.all fun t => m.indexInWindow c t) then some (.windowViolation, 0)
  else match s.indexed.findSome? fun t => m.badSpads t.indexRange with
    | some w => some (.uncorrectable, spadIsland (w * 8))
    | none => (s.indexed.findSome? fun t => m.badIndex t).map fun p => (.indexOutOfRange, p)

/-- Index values of an endpoint, as checked. -/
def Mach.indexList (m : Mach) (t : Td) (e : EndAt) : List Nat :=
  if e = .host ∨ t.indexAddr = 0 then [] else (List.range (t.size t.dims)).map fun p => m.indexOf t p

/-- What may refuse a slot beside R97: its rank or its QP. -/
def Mach.checkFar (m : Mach) (c : CtxId) (s : MoveSlot) : Option (Status × Nat) :=
  match s.ty with
  | some .put | some .get =>
    if m.unplanned c then some (.linkLost, s.far)
    else match m.rankOf c s.far with
      | none => some (.linkLost, s.far)
      | some r => if m.canReach clsReq r.1 then none else some (.linkLost, s.far)
  | some .hostIn | some .hostOut =>
    if (m.ctxs[c]).qps[qData s.far].st = .rts then none else some (.linkLost, 0xFFFFFFFF)
  | _ => none

/-- A fabric slot: PUT and GET wait for the fold (R269). -/
def MoveSlot.fabric (s : MoveSlot) : Bool := decide (s.ty = some .put) || decide (s.ty = some .get)

/-- Islands that starting a slot needs: MOVE, and the path to the index tensors it reads (R97). -/
def MoveSlot.startPath (s : MoveSlot) : List IslandId :=
  129 :: (s.indexed.flatMap Td.indexRange).flatMap fun r => spadPath r.1 r.2

/-- The head MOVE slot of a context may start now: a free active place, a running island, and for a fabric slot a fold whose
traffic flows or that has no plan at all. -/
def Mach.moveStarts (m : Mach) (c : CtxId) (s : MoveSlot) : Bool :=
  decide ((m.mv.jobs.filter fun j => decide (j.c = c)).length < 4) && m.works &&
    m.reachable s.startPath && (!s.fabric || m.unplanned c || m.foldFlows c)

/-- A MOVE slot of one type starts: it leaves its queue and its checks come first (R96, R97). -/
def moveRow (ty : MoveTy) (c : CtxId) (st : State) : Host.Outcome State Fault Refusal :=
  runs st fun m =>
    match m.startable c .move with
    | none => m
    | some q =>
      let s := parseMove q.bytes
      if s.ty ≠ some ty ∨ !m.moveStarts c s then m
      else
        let m := (m.takeHead c .move).wake s.startPath
        let fail := fun (m : Mach) (p : Status × Nat) =>
          m.failSlot c q { status := p.1, detail := p.2, range0 := s.faultRange,
                           island := if p.1 = .uncorrectable then p.2 else 0xFF }
        match m.checkFar c s with
        | some p => fail m p
        | none => match m.checkMove c s with
          | some p => fail (if p.1 = .uncorrectable then m.readIndices c s.indexed else m) p
          | none =>
            let m := m.readIndices c s.indexed
            let j : MoveJob := {
              c := c, slot := q, nextPiece := 0, pieces := s.pieces, win := 0, outstanding := 0, nextApply := 0,
              srcIx := m.indexList s.src s.ends.1, dstIx := m.indexList s.dst s.ends.2,
              tokenSent := false, reserved := 0, waitingBpm := false, failed := none }
            { m with mv := { m.mv with jobs := m.mv.jobs ++ [j] } }

/-- LOAD (R94): local DRAM to local scratchpad. -/
def execLoad (c : CtxId) (s : State) : Host.Outcome State Fault Refusal := moveRow .load c s

/-- STORE (R94): local scratchpad to local DRAM. -/
def execStore (c : CtxId) (s : State) : Host.Outcome State Fault Refusal := moveRow .store c s

/-- COPY (R94): local scratchpad to local scratchpad. -/
def execCopy (c : CtxId) (s : State) : Host.Outcome State Fault Refusal := moveRow .copy c s

/-- DCOPY (R94): local DRAM to local DRAM. -/
def execDcopy (c : CtxId) (s : State) : Host.Outcome State Fault Refusal := moveRow .dcopy c s

/-- PUT (R100): local memory to a remote rank. -/
def execPut (c : CtxId) (s : State) : Host.Outcome State Fault Refusal := moveRow .put c s

/-- GET (R101): remote memory to local scratchpad. -/
def execGet (c : CtxId) (s : State) : Host.Outcome State Fault Refusal := moveRow .get c s

/-- HOST_IN (R105, R289): host memory to local memory. -/
def execHostIn (c : CtxId) (s : State) : Host.Outcome State Fault Refusal := moveRow .hostIn c s

/-- HOST_OUT (R105, R289): local memory to host memory. -/
def execHostOut (c : CtxId) (s : State) : Host.Outcome State Fault Refusal := moveRow .hostOut c s

/-! ### Packets in flight (R100, R103, R104, R261) -/

/-- The congestion window of a destination: it starts at move_cwnd_init, and so does its first window's worth of ACKs. -/
def Mach.cwndOf (m : Mach) (d : Coord) : Cwnd := Sparse.get ⟨m.num 0x2983 3, 0, m.num 0x2983 3, false⟩ d.toNat m.mv.cwnd

/-- A flight is in the fabric. -/
def Flight.inFabric (f : Flight) : Bool := !f.held

/-- A packet of a MOVE slot: the congestion window counts these alone (R104, R262). -/
def Flight.byMove (f : Flight) : Bool :=
  match f.owner with
  | .slot _ _ => true
  | .orphan move => move
  | _ => false

/-- Release held packets in order: room in the window of the destination; for a FENCE packet, no earlier packet of its context
to the same destination still unanswered. -/
def releaseGo (cwnd : Coord → Nat) : List Flight → List Flight → List Flight × List Flight
  | _, [] => ([], [])
  | before, f :: rest =>
    let d := (hdrOf f.pkt).dst
    let count := ((before ++ rest).filter fun g => g.inFabric && g.byMove && decide ((hdrOf g.pkt).dst = d)).length
    let fenced := (hdrOf f.pkt).fence && before.any fun g => decide ((hdrOf g.pkt).dst = d) &&
      decide ((hdrOf g.pkt).ctx = (hdrOf f.pkt).ctx)
    let go := f.held && (!f.byMove || decide (count < cwnd d)) && !fenced
    let f' := if go then { f with held := false } else f
    let r := releaseGo cwnd (before ++ [f']) rest
    (f' :: r.1, if go then f' :: r.2 else r.2)

/-- Release what may be released and inject it. -/
def Mach.releaseFlights (m : Mach) : Mach :=
  let r := releaseGo (fun d => (m.cwndOf d).size) [] m.mv.flights
  r.2.foldl (fun m f => m.inject (hdrOf f.pkt) f.pkt.payload) { m with mv := { m.mv with flights := r.1 } }

/-- Put a packet in flight, held until it is released. -/
def Mach.launch (m : Mach) (owner : FlightOwner) (rank index : Nat) (h : Hdr) (payload : Bytes) (toDram : Bool := false)
    (toAddr : Nat := 0) : Mach :=
  let tag := m.mv.nextTag
  let h := { h with tag := tag.toNat, src := m.net.own }
  let f : Flight := ⟨tag, owner, mkPacket h payload, rank, 0, index, toDram, toAddr, none, true⟩
  { m with mv := { m.mv with flights := m.mv.flights ++ [f], nextTag := tag + 1 } }

/-- An answer opens or halves the window of its destination (R104). A window's worth is as many ACKs as the window was large when
their count began, so that a halving does not end the count it falls in. -/
def Mach.cwndAnswer (m : Mach) (d : Coord) (marked : Bool) : Mach :=
  let w := m.cwndOf d
  let halve := marked && !w.halved
  let size := if halve then max 1 (w.size / 2) else w.size
  let w := { w with size := size, halved := w.halved || halve, acks := w.acks + 1 }
  let w := if w.span ≤ w.acks then
      let size := if w.halved then w.size else min (w.size + 1) (m.num 0x2983 4)
      ⟨size, 0, size, false⟩
    else w
  let m := if halve then m.cnt 0xB004 129 else m
  { m with mv := { m.mv with cwnd := Sparse.put d.toNat w m.mv.cwnd } }

/-- Header of a data packet of a slot. -/
def Mach.moveHdr (m : Mach) (c : CtxId) (s : MoveSlot) (far : Coord × Nat) (ty len addr : Nat) (dram : Bool) : Hdr :=
  { epoch := far.2, fold := m.foldId c, length := len, ty := ty, cls := clsReq, ctx := c.val, fence := s.fence, addr := addr,
    dram := dram, dst := far.1 }

/-! ### Taking a piece (R96, R100, R101, R105) -/

/-- Copy the parts of a local piece in order. -/
def Mach.copySegs (m : Mach) (c : CtxId) (j : MoveJob) (s : MoveSlot) : List Seg → Mach × Option Nat
  | [] => (m, none)
  | g :: rest =>
    match m.readSeg c j s g with
    | (m, .error i) => (m, some i)
    | (m, .ok b) => match m.writeSeg c j.slot.uid j s g b with
      | (m, some i) => (m, some i)
      | (m, none) => Mach.copySegs m c j s rest

/-- Send the parts of a PUT piece as packets of up to 4 KiB. -/
def Mach.putSegs (m : Mach) (c : CtxId) (j : MoveJob) (s : MoveSlot) (far : Coord × Nat) : List Seg → Nat → Mach × Except Nat Nat
  | [], n => (m, .ok n)
  | g :: rest, n =>
    match m.readSeg c j s g with
    | (m, .error i) => (m, .error i)
    | (m, .ok b) =>
      let a := j.dstRow s g.row + g.off
      let h := m.moveHdr c s far tyPut b.length a s.ends.2.isDram
      Mach.putSegs ((m.launch (.slot c j.slot.uid) s.far n h b).cnt 0xB005 129 (some c) b.length) c j s far rest (n + 1)

/-- A slot's destination as it is now: coordinates and epoch, where it can be reached (R265). -/
def Mach.farNow (m : Mach) (c : CtxId) (s : MoveSlot) : Option (Coord × Nat) :=
  match m.rankOf c s.far with
  | some r => if m.canReach clsReq r.1 then some r else none
  | none => none

/-- Buffers that piece k needs, or window w of it for a GET, and where they come from: pool, requester, reason. -/
def MoveSlot.needs (s : MoveSlot) (c : CtxId) (uid k w : Nat) : Option (PoolId × BpmReq) :=
  match s.ty with
  | some .get => some (0, ⟨rqCtx c, (s.window k w).length, .get c uid⟩)
  | some .hostIn | some .hostOut => some (1, ⟨rqMove, cdiv (segBytes (s.piece k)) 16384, .host c uid⟩)
  | _ => none

/-- READ requests of a QP still unanswered. -/
def Qp.readsOut (q : Qp) : Nat :=
  (q.outstanding.filter fun r => match r with
    | .read _ _ _ _ _ => true
    | _ => false).length

/-- A host piece can be sent: its class is not paused (R277), and READs are limited to max_rd_out (R289). -/
def Mach.hostRoom (m : Mach) (c : CtxId) (s : MoveSlot) : Bool :=
  (!m.hostPaused 0 || !(decide (s.ty = some .hostIn) || decide (s.ty = some .hostOut))) && (decide (s.ty ≠ some .hostIn) ||
    decide ((m.ctxs[c]).qps[qData s.far].readsOut < m.num (qpIdx c (qData s.far)) 0x0C))

/-- Do the work of piece k of a job whose buffers, if it needs any, are reserved; of a GET's piece, the window that is next. -/
def Mach.runPiece (m : Mach) (j : MoveJob) (k : Nat) : Mach :=
  let c := j.c
  let s := parseMove j.slot.bytes
  let uid := j.slot.uid
  let segs := s.piece k
  let next := fun (m : Mach) (n : Nat) => m.modMove c uid fun j => { j with nextPiece := k + 1, outstanding := j.outstanding + n }
  match s.ty with
  | some .put =>
    match m.farNow c s with
    | none => m.failMove j Status.linkLost.code s.far
    | some far =>
      match m.putSegs c j s far (packetsOf segs) 0 with
      | (m, .error i) => m.failMove j Status.uncorrectable.code i
      | (m, .ok n) => (next m n).releaseFlights
  | some .get =>
    match m.farNow c s with
    | none => m.failMove j Status.linkLost.code s.far
    | some far =>
      let ps := s.window k j.win
      let m := (ps.zip (List.range ps.length)).foldl (fun m p =>
        let g := p.1
        let h := m.moveHdr c s far tyGet g.len (j.srcRow s g.row + g.off) s.ends.1.isDram
        m.launch (.slot c uid) s.far (j.win * getWindow + p.2) h [] false (j.dstRow s g.row + g.off)) m
      let last := decide (s.windows k ≤ j.win + 1)
      (m.modMove c uid fun j => { j with nextPiece := if last then k + 1 else k, win := if last then 0 else j.win + 1,
                                         outstanding := j.outstanding + ps.length }).releaseFlights
  | some .hostIn =>
    let q := qData s.far
    let o := (segs.headD ⟨0, 0, 0⟩).row * s.rowLen + (segs.headD ⟨0, 0, 0⟩).off
    let n := segBytes segs
    if (m.ctxs[c]).qps[q].st ≠ .rts then m.failMove j Status.linkLost.code 0xFFFFFFFF
    else
      let m := m.modQp c q fun p => { p with outstanding := p.outstanding ++ [.read uid k (s.src.hostVa + o) s.src.indexBound n] }
      next ((m.psnTx c q n).send (.rdmaReadReq c q (s.src.hostVa + o) s.src.indexBound n)) 1
  | some .hostOut =>
    let q := qData s.far
    let o := (segs.headD ⟨0, 0, 0⟩).row * s.rowLen + (segs.headD ⟨0, 0, 0⟩).off
    if (m.ctxs[c]).qps[q].st ≠ .rts then m.failMove j Status.linkLost.code 0xFFFFFFFF
    else
      let r := segs.foldl (fun (p : Mach × Except Nat Bytes) g => match p with
        | (m, .error i) => (m, .error i)
        | (m, .ok b) => match m.readSeg c j s g with
          | (m, .error i) => (m, .error i)
          | (m, .ok d) => (m, .ok (b ++ d))) (m, .ok [])
      match r with
      | (m, .error i) => m.failMove j Status.uncorrectable.code i
      | (m, .ok b) =>
        let m := m.modQp c q fun p => { p with outstanding := p.outstanding ++ [.write uid (s.dst.hostVa + o) s.dst.indexBound b] }
        let m := (m.psnTx c q b.length).send (.rdmaWrite c q (s.dst.hostVa + o) s.dst.indexBound b)
        next (m.cnt 0xB005 129 (some c) b.length) 1
  | _ =>
    match m.copySegs c j s segs with
    | (m, some i) => m.failMove j Status.uncorrectable.code i
    | (m, none) => next m 0

/-- Buffers have been granted: the piece they were asked for runs. -/
def Mach.runReserved (m : Mach) (j : MoveJob) (n : Nat) : Mach :=
  let j' := { j with reserved := j.reserved + n, waitingBpm := false }
  (m.modMove j.c j.slot.uid fun _ => j').runPiece j' j.nextPiece

/-- Islands that the next piece of a job needs. -/
def MoveJob.nextPath (j : MoveJob) : List IslandId :=
  let s := parseMove j.slot.bytes
  j.path s (if s.ty = some .get then s.window j.nextPiece j.win else s.piece j.nextPiece)

/-- A job a channel may serve: a piece left, no wait for buffers, its context still moving, room on its QP, and no island on the path
holding the transfer back (R17). -/
def Mach.serves (m : Mach) (j : MoveJob) : Bool :=
  decide (j.nextPiece < j.pieces) && !j.waitingBpm && decide (j.failed = none) &&
    (decide ((m.ctxs[j.c]).st = .enabled) || decide ((m.ctxs[j.c]).st = .halting)) && m.hostRoom j.c (parseMove j.slot.bytes) &&
    m.reachable j.nextPath

/-- The job whose turn it is: the best class, and in it the one served longest ago (the list turns). -/
def Mach.nextJob (m : Mach) : Option MoveJob :=
  let js := m.mv.jobs.filter m.serves
  js.find? fun j => js.all fun k => decide (j.slot.cls ≤ k.slot.cls)

/-- The turn passes to the other jobs once a piece has been taken whole; a GET's piece holds its channel window by window. -/
def Mach.turned (m : Mach) (j : MoveJob) : Mach :=
  let s := parseMove j.slot.bytes
  if s.ty = some .get ∧ j.win + 1 < s.windows j.nextPiece then m
  else { m with mv := { m.mv with
    jobs := (m.mv.jobs.filter fun (k : MoveJob) => !decide (k.c = j.c ∧ k.slot.uid = j.slot.uid)) ++ [j], lastCtx := j.c } }

/-- MOVE_PIECE (R96, R100, R101, R105): a free channel takes the next piece, or the next window of a GET's piece, over the islands of
its path; `ev` is what befalls the memories meanwhile (R77, R80, R85). -/
def execMovePiece (p : PieceMove) (s : State) : Host.Outcome State Fault Refusal :=
  runs s fun m =>
    let m := m.memEvents p.ev
    match m.nextJob with
    | none => m
    | some j =>
      let s := parseMove j.slot.bytes
      let m := (m.turned j).wake j.nextPath
      match s.needs j.c j.slot.uid j.nextPiece j.win with
      | none => m.runPiece j j.nextPiece
      | some (p, r) =>
        match m.bpmAsk p r with
        | (m, true) => m.runReserved j r.n
        | (m, false) => m.modMove j.c j.slot.uid fun j => { j with waitingBpm := true }

/-! ### Answers (R100 to R104, R138) -/

/-- Remove a flight. -/
def Mach.land (m : Mach) (tag : BitVec 16) : Mach :=
  { m with mv := { m.mv with flights := m.mv.flights.filter fun f => !decide (f.tag = tag) } }

/-- The flight that an answer matches: same tag, released, sent to the module that answers. -/
def Mach.flightOf (m : Mach) (h : Hdr) : Option Flight :=
  m.mv.flights.find? fun f => decide (f.tag.toNat = h.tag) && !f.held && decide ((hdrOf f.pkt).dst = h.src)

/-- Detail of a fault that a negative ACK gives (R102, R138, R156). The ACK carries no detail: the engine that would overflow
and the remote island of an uncorrectable error are free values (log 18). -/
def Mach.remoteDetail (m : Mach) (s : MoveSlot) (status : Nat) : Nat :=
  if status = Status.windowViolation.code then 1
  else if status = Status.tokenOverflow.code then
    let ts := targetTables s.remoteTargets
    s.remoteId + ts.getD (Config.freeWord m.freeCtr % max 1 ts.length) 0 * 2 ^ 12
  else if status = Status.uncorrectable.code then Config.freeWord m.freeCtr % 2 ^ 32
  else s.far

/-- After the last ACK of its data, a PUT that names remote targets sends one TOKEN packet with FENCE (R138). -/
def Mach.sendToken (m : Mach) (c : CtxId) (uid : Nat) : Mach :=
  match m.moveJob c uid with
  | none => m
  | some j =>
    let s := parseMove j.slot.bytes
    if j.nextPiece < j.pieces ∨ j.outstanding ≠ 0 ∨ j.tokenSent ∨ s.remoteTargets = 0 then m
    else match m.farNow c s with
      | none => m.failMove j Status.linkLost.code s.far
      | some far =>
        let h := { m.moveHdr c s far tyToken 0 0 false with fence := true, token := s.remoteId + s.remoteTargets * 2 ^ 12 }
        let m := m.modMove c uid fun j => { j with tokenSent := true, outstanding := 1 }
        (m.launch (.slot c uid) s.far 0 h []).releaseFlights

/-- An ACK of a slot's packet. -/
def Mach.slotAck (m : Mach) (c : CtxId) (uid : Nat) (status : Nat) : Mach :=
  match m.moveJob c uid with
  | none => m
  | some j =>
    if status ≠ 0 then
      (m.failMove j status (m.remoteDetail (parseMove j.slot.bytes) status)).drew
    else
      (m.modMove c uid fun j => { j with outstanding := j.outstanding - 1 }).sendToken c uid

/-- Write GET data at its place; a failed write faults the slot. -/
def Mach.landData (m : Mach) (j : MoveJob) (f : Flight) (b : Bytes) : Mach :=
  let s := parseMove j.slot.bytes
  let c := j.c
  let m := (m.land f.tag).cnt 0xB005 129 (some c) b.length
  match m.landSpad c s f.toAddr b with
  | (m, some i) => m.failMove j Status.uncorrectable.code i
  | (m, none) =>
    (m.bpmReturn 0 (rqCtx c) 1).modMove c j.slot.uid fun j =>
      { j with outstanding := j.outstanding - 1, reserved := j.reserved - 1, nextApply := j.nextApply + 1 }

/-- Apply the responses of a slot with an indirect destination that are next in ascending position (R101). -/
def Mach.applyInOrder (m : Mach) (c : CtxId) (uid : Nat) : Nat → Mach
  | 0 => m
  | n + 1 =>
    match m.moveJob c uid with
    | none => m
    | some j =>
      match m.mv.flights.find? fun f => decide (f.owner = FlightOwner.slot c uid) && decide (f.index = j.nextApply) && f.answer.isSome with
      | none => m
      | some f => Mach.applyInOrder (m.landData j f (f.answer.getD [])) c uid n

/-- A GET_RSP of a slot's packet (R101). -/
def Mach.slotData (m : Mach) (c : CtxId) (uid : Nat) (f : Flight) (b : Bytes) : Mach :=
  match m.moveJob c uid with
  | none => m.land f.tag
  | some j =>
    if (parseMove j.slot.bytes).uncut then
      let m := { m with mv := { m.mv with flights := m.mv.flights.map fun (g : Flight) => if g.tag = f.tag then { g with answer := some b } else g } }
      m.applyInOrder c uid m.mv.flights.length
    else m.landData j f b

/-- Resend a flight (R103): resends do not count while the route is REBUILDING. -/
def Mach.resendFlight (m : Mach) (f : Flight) : Mach :=
  let m := m.cnt 0xB003 129 ((m.ctxOfFold (hdrOf f.pkt).fold))
  let m := { m with mv := { m.mv with flights := m.mv.flights.map fun (g : Flight) =>
    if g.tag = f.tag ∧ !m.net.rebuilding then { g with resends := g.resends + 1 } else g } }
  m.inject (hdrOf f.pkt) f.pkt.payload

/-! ### Completion (R106) -/

/-- Every byte of a job's destination is visible. -/
def Mach.moveDone (m : Mach) (j : MoveJob) : Bool :=
  let s := parseMove j.slot.bytes
  decide (j.nextPiece = j.pieces) && decide (j.outstanding = 0) && decide (j.failed = none) &&
    (decide (s.remoteTargets = 0) || j.tokenSent) &&
    !m.drover.heldWrites.any fun w => decide (w.owner = some (j.c, j.slot.uid))

/-- MOVE_COMPLETE (R106, R147): the slot of word w enters COMPLETE and commits. -/
def execMoveComplete (c : CtxId) (w : BitVec 16) (s : State) : Host.Outcome State Fault Refusal :=
  runs s fun m =>
    match m.mv.jobs.find? fun j => decide (j.c = c ∧ j.slot.seq = w) with
    | none => m
    | some j =>
      if m.moveDone j && m.mayCommit c j.slot then
        (m.dropMove j).commitSlot c j.slot ((parseMove j.slot.bytes).faultRange, noRange)
      else m

end Sys2Proof.Machine
end

