-- ==== Sys2Proof/Machine/Snapshot.lean ====
section
/-! DEFINITION. What the Drover saves and where (R293 to R295), the snapshot point (R296), and the buddy stream's packets
(R301). -/

namespace Sys2Proof.Machine

open Sys2Proof

/-! ### The region table (R294) -/

/-- A registered region: live address, length in patches, tag, slice. -/
structure Region where
  addr : Nat
  patches : Nat
  tag : Nat
  slice : Nat
  deriving DecidableEq, Repr

/-- The 32 entries of a region table, as numbers. -/
def tableEntries (b : Bytes) : List Nat := (List.range 32).map fun i => getLe b (32 * i) 32

/-- The region of an entry. -/
def regionOf (n : Nat) : Region := ⟨bits n 63 20, bits n 95 64, bits n 127 96, bits n 255 128⟩

/-- The valid regions of a table, in table order. -/
def regionsOf (b : Bytes) : List Region := ((tableEntries b).filter fun n => bit n 0).map regionOf

/-- Index of a context's checkpoint objects (R317). -/
def ckptIdx (c : CtxId) : Nat := 0x2B10 + c.val

/-- The region table of a context. -/
def Mach.regionTable (m : Mach) (c : CtxId) : Bytes := (m.obj (ckptIdx c) 9).toBytes

/-- The regions of a context. -/
def Mach.regions (m : Mach) (c : CtxId) : List Region := regionsOf (m.regionTable c)

/-- Patches a context registers. -/
def patchCount (rs : List Region) : Nat := (rs.map Region.patches).sum

/-- A context is bound to checkpointing. -/
def Mach.ckptOn (m : Mach) (c : CtxId) : Bool := decide (m.num (ckptIdx c) 1 = 1)

/-! ### Slots (R295) -/

/-- Bytes of a slot. -/
def Mach.slotBytes (m : Mach) : Nat := m.drover.slotGib * 2 ^ 30

/-- Address of slot s. -/
def Mach.slotBase (m : Mach) (s : Nat) : Nat := m.droverBase + s * m.slotBytes

/-- Bytes of a CONTROL record in the header area. -/
def controlLen : Nat := 16384

/-- Where a context's images start in a slot: behind the header area and the images of the contexts before it. -/
def Mach.imageStart (m : Mach) (c : CtxId) : Nat :=
  patchBytes * (1 + ((allCtx.filter fun d => decide (d.val < c.val) && m.ckptOn d).map fun d => patchCount (m.regions d)).sum)

/-- Bytes of a context's images. -/
def Mach.imageLen (m : Mach) (c : CtxId) : Nat := patchBytes * patchCount (m.regions c)

/-- Patches of a context's regions and their places behind a patch number: live patch, slot patch. -/
def patchPairs : List Region → Nat → List (Nat × Nat)
  | [], _ => []
  | r :: rest, p =>
    ((List.range r.patches).map fun i => (r.addr / patchBytes + i, p + i)) ++ patchPairs rest (p + r.patches)

/-- The local slot a step's snapshot lies in (R301: matching parity). -/
def localSlot (step : Nat) : Fin 2 := Fin.ofNat 2 step

/-- Change a local slot. -/
def Mach.modSnap (m : Mach) (k : Fin 2) (f : SnapSlot → SnapSlot) : Mach :=
  { m with drover := { m.drover with slots := Vec.upd m.drover.slots k f } }

/-- Change what the Drover holds for a context. -/
def Mach.modCkpt (m : Mach) (c : CtxId) (f : CkptCtx → CkptCtx) : Mach :=
  { m with drover := { m.drover with ctxs := Vec.upd m.drover.ctxs c f } }

/-- Bytes of a local slot as the Drover's readers see them: each patch wherever it currently lies (R299). -/
def Mach.snapRead (m : Mach) (k : Fin 2) (a n : Nat) : Bytes :=
  let un := (m.drover.slots[k]).uncopied
  (List.range n).map fun i =>
    let b := a + i
    match un.find? fun e => decide (e.2 = b / patchBytes) with
    | some e => m.dramByte (e.1 * patchBytes + b % patchBytes)
    | none => m.dramByte b

/-- Where a reader of a local slot finds bytes that lie in one patch of it: in the live patch until that is copied (R299). -/
def Mach.snapAddr (m : Mach) (k : Fin 2) (a : Nat) : Nat :=
  match (m.drover.slots[k]).uncopied.find? fun e => decide (e.2 = a / patchBytes) with
  | some e => e.1 * patchBytes + a % patchBytes
  | none => a

/-- The Drover reads bytes of a local slot that lie in one patch: the bytes, with what ECC corrects, or an uncorrectable unit
(R85, R299). -/
def Mach.snapFetch (m : Mach) (k : Fin 2) (a n : Nat) (c : Option CtxId) : Mach × Except Nat Bytes :=
  let m := m.wake (130 :: dramPath (m.snapAddr k a) n)
  match m.dramBad (m.snapAddr k a) n with
  | some u => (m.dramUe u c, .error u)
  | none => (m.readDram (m.snapAddr k a) n c, .ok (m.snapRead k a n))

/-- A range of bytes cut at the patches. -/
def patchCuts (a n : Nat) : List (Nat × Nat) :=
  (List.range (if n = 0 then 0 else (a % patchBytes + n - 1) / patchBytes + 1)).map fun i =>
    let b := max a ((a / patchBytes + i) * patchBytes)
    (b, min (a + n) ((a / patchBytes + i + 1) * patchBytes) - b)

/-- The Drover reads bytes of a local slot, patch by patch. -/
def Mach.snapFetchAll (m : Mach) (k : Fin 2) (a n : Nat) (c : Option CtxId) : Mach × Except Nat Bytes :=
  (patchCuts a n).foldl (fun r p => match r with
    | (m, .error u) => (m, .error u)
    | (m, .ok b) => match m.snapFetch k p.1 p.2 c with
      | (m, .error u) => (m, .error u)
      | (m, .ok d) => (m, .ok (b ++ d))) (m, .ok [])

/-! ### The CONTROL class (R293) -/

/-- A group definition as numbers. -/
def Group.fields (g : Group) : List Nat :=
  [g.id, g.epoch.toNat, g.proto.toNat, g.wire, g.pool.val, g.bobbinLog2, g.level, g.hash.toNat, g.expected.toNat,
    g.ring.length] ++ (g.ring.map fun e => e.1 + e.2 * 4) ++ g.coords.map BitVec.toNat

/-- Group definitions read back from numbers. -/
def groupsOfFields (c : CtxId) : Nat → List Nat → List Group
  | 0, _ => []
  | f + 1, id :: ep :: pr :: w :: p :: bl :: lv :: h :: ex :: n :: rest =>
    { ctx := c, id := id, ring := (rest.take n).map fun e => (e % 4, e / 4),
      coords := ((rest.drop n).take n).map fun e => BitVec.ofNat 18 e, epoch := BitVec.ofNat 16 ep,
      proto := BitVec.ofNat 8 pr, wire := w, pool := Fin.ofNat 64 p, bobbinLog2 := bl, level := lv,
      hash := BitVec.ofNat 64 h, expected := BitVec.ofNat 32 ex } :: groupsOfFields c f (rest.drop (2 * n))
  | _, _ => []

/-- A CONTROL record as numbers. -/
def Control.fields (k : Control) : List Nat :=
  [k.seed.toNat, k.step.toNat, k.nextSeq, k.block.length, leNat k.block, k.regions.length, leNat k.regions,
    k.settings.length] ++ k.settings ++ [k.groups.length] ++ k.groups.flatMap Group.fields

/-- A CONTROL record read back from numbers. -/
def Control.ofFields (c : CtxId) : List Nat → Option Control
  | sd :: st :: ns :: bl :: b :: rl :: r :: n :: rest =>
    match rest.drop n with
    | g :: gs => some { seed := BitVec.ofNat 64 sd, step := BitVec.ofNat 64 st, nextSeq := ns, block := natLe bl b,
                        regions := natLe rl r, settings := rest.take n, groups := groupsOfFields c g gs }
    | [] => none
  | _ => none

/-- The window objects, priority class and fold binding of a context. -/
def Mach.settingsOf (m : Mach) (c : CtxId) : List Nat :=
  [m.num (ctxIdx c 4) 1, m.num (ctxIdx c 4) 2, (m.dramWindow c).1, (m.dramWindow c).2, m.classOf c, m.num 0x2510 (c.val + 1)]

/-- The CONTROL class of a context at a snapshot point, with the snapshot's step. -/
def Mach.controlOf (m : Mach) (c : CtxId) (step : BitVec 64) : Control :=
  let x := m.ctxs[c]
  { seed := x.seed, step := step, nextSeq := x.expected.toNat, block := m.spadRead (m.num (ckptIdx c) 3) 4096,
    regions := m.regionTable c, settings := m.settingsOf c, groups := m.shut.groups.filter fun g => decide (g.ctx = c) }

/-- The 16 KiB of a CONTROL record. -/
def Control.bytes (k : Control) : Bytes :=
  ((Config.controlBytes k.fields) ++ List.replicate controlLen 0).take controlLen

/-! ### The buddy stream (R301) -/

/-- Address in a slot of byte v of a context's stream: the images, then the CONTROL record, which goes last. -/
def Mach.streamAddr (m : Mach) (c : CtxId) (slot v : Nat) : Nat :=
  let l := m.imageLen c
  if v < l then m.slotBase slot + m.imageStart c + v else m.slotBase slot + c.val * controlLen + (v - l)

/-- A snapshot fails: EMCY 0xFF0A (R299, R300). -/
def Mach.snapFailed (m : Mach) (k : Fin 2) (c : Option CtxId) : Mach :=
  (m.modSnap k fun s => { s with st := .failed }).emcy 0xFF0A k.val 3 c 130

/-- The stream of a context cannot go on: its slot is FAILED and its buddy state NONE (R301, R309). -/
def Mach.buddyFailed (m : Mach) (c : CtxId) : Mach :=
  match (m.drover.ctxs[c]).stream with
  | none => m
  | some t => (m.modCkpt c fun k => { k with stream := none, buddy := 0, refused := true }).snapFailed (Fin.ofNat 2 t.slot) (some c)

/-- Send the next packet of a context's stream; one is outstanding at a time (log 20). -/
def Mach.streamNext (m : Mach) (c : CtxId) : Mach :=
  match (m.drover.ctxs[c]).stream with
  | none => m
  | some t =>
    if t.waiting ∨ t.stop ≤ t.pos then m
    else
      let k : Fin 2 := Fin.ofNat 2 t.slot
      let n := min 4096 (t.stop - t.pos)
      let a := m.streamAddr c t.slot t.pos
      let rank := m.num (ckptIdx c) 4
      match m.rankOf c rank, m.snapFetch k a n (some c) with
      | _, (m, .error _) => m.buddyFailed c
      | none, _ => m.buddyFailed c
      | some far, (m, .ok b) =>
        if !m.canReach clsBulk far.1 then m.buddyFailed c
        else
          let h : Hdr := { epoch := far.2, fold := m.foldId c, length := n, ty := tyPut, cls := clsBulk, ctx := c.val,
                           addr := m.streamAddr c (2 + t.slot) t.pos, dram := true, dst := far.1 }
          let m := m.modCkpt c fun x => { x with stream := some { t with waiting := true } }
          (m.launch (.buddy c) rank t.pos h b).releaseFlights

/-- Start, or start again, the stream of a context's newest snapshot. -/
def Mach.streamStart (m : Mach) (c : CtxId) (slot : Nat) : Mach :=
  let m := { m with mv := { m.mv with flights := leaveFlights (.buddy c) false m.mv.flights } }
  (m.modCkpt c fun k => { k with buddy := 1, refused := false, stream := some ⟨slot, 0, m.imageLen c + controlLen, false, false⟩ }).streamNext c

/-- A local slot has become BUDDIED: the far ends of STORAGE bundles are told (R312). The message's layout is not given (log 7). -/
def Mach.tellBuddied (m : Mach) (k : Fin 2) : Mach :=
  (m.net.bundles.toList.filter fun b => decide (b.role = 3)).foldl
    (fun m b => m.mgtTo b.far 0x2B04 k.val [(m.drover.slots[k]).step.toNat]) m

/-- A local slot whose patches are all copied and whose owners' streams have ended is BUDDIED (R300). -/
def Mach.settleSnap (m : Mach) (k : Fin 2) : Mach :=
  let s := m.drover.slots[k]
  let m := if s.st = .frozen ∧ s.uncopied = [] then m.modSnap k fun s => { s with st := .held } else m
  let s := m.drover.slots[k]
  if s.st = .held ∧ s.owners.all (fun c => decide ((m.drover.ctxs[c]).buddy = 2)) then
    (m.modSnap k fun s => { s with st := .buddied }).tellBuddied k
  else m

/-- An ACK of a stream packet. -/
def Mach.streamAck (m : Mach) (c : CtxId) (status : Nat) (len : Nat) : Mach :=
  match (m.drover.ctxs[c]).stream with
  | none => m
  | some t =>
    if status ≠ 0 then m.buddyFailed c
    else
      let pos := t.pos + len
      if t.stop ≤ pos then
        (m.modCkpt c fun k => { k with stream := none, buddy := 2 }).settleSnap (Fin.ofNat 2 t.slot)
      else (m.modCkpt c fun k => { k with stream := some { t with pos := pos, waiting := false } }).streamNext c

/-! ### The snapshot point (R142, R296) -/

/-- The step-boundary actions release a context: step advances and dispatch goes on (R142). -/
def Mach.releaseStep (m : Mach) (c : CtxId) : Mach :=
  m.modCtx c fun x => { x with step := x.step + 1, stepHold := .none }

/-- The snapshot point of a context (R296 step 3): patches marked uncopied, the CONTROL record written, the snapshot before
committed, the context released; then the stream starts (step 4). -/
def Mach.snapshotPoint (m : Mach) (c : CtxId) : Mach :=
  let step := (m.ctxs[c]).step + 1
  let k := localSlot step.toNat
  let pairs := patchPairs (m.regions c) ((m.slotBase k.val + m.imageStart c) / patchBytes)
  let ctl := m.controlOf c step
  let shared := decide ((m.drover.slots[k]).step = step) && (m.drover.slots[k]).owners.any fun d => decide (d ≠ c)
  let block := m.num (ckptIdx c) 3
  let r := (m.wake (130 :: spadPath block 4096)).fetchSpad block 4096 (some c)
  let m := r.1.modSnap k fun s =>
    if shared then
      { s with st := .frozen, uncopied := s.uncopied ++ pairs, control := Vec.upd s.control c fun _ => some ctl,
               owners := c :: s.owners.filter (· ≠ c) }
    else
      { st := .frozen, step := step, uncopied := pairs, copied := 0, owners := [c],
        control := (Vector.replicate 4 none).set c (some ctl) }
  let m := m.dramPut (m.slotBase k.val + c.val * controlLen) ctl.bytes
  let m := m.modSnap (k + 1) fun s => if s.st = .buddied then { s with st := .committed } else s
  let m := m.releaseStep c
  match r.2 with
  | .error _ => m.snapFailed k (some c)
  | .ok _ => (m.streamStart c k.val).settleSnap k

end Sys2Proof.Machine
end

