-- ==== Sys2Proof/Machine/Group.lean ====
section
/-! DEFINITION. Shuttle groups (R128, R187 to R192): their shape, their checks, DEFINE_GROUP and RELEASE_GROUP. -/

namespace Sys2Proof.Machine

open Sys2Proof

/-! ### The shape of a group (R187, R189, R330) -/

/-- Insert a number into a rising list without repeats. -/
def insertNat (n : Nat) : List Nat → List Nat
  | [] => [n]
  | k :: rest => if n < k then n :: k :: rest else if n = k then k :: rest else k :: insertNat n rest

/-- The distinct numbers of a list, rising. -/
def distinct (l : List Nat) : List Nat := l.foldl (fun a n => insertNat n a) []

/-- Position of a number in a list. -/
def posIn (n : Nat) (l : List Nat) : Nat := (l.findIdx? fun k => decide (k = n)).getD 0

/-- Member dies of a rank, in ascending order. -/
def diesOf (ring : List (Nat × Nat)) (rank : Nat) : List Nat := [0, 1, 2, 3].filter fun d => ring.contains (d, rank)

/-- Extents p, X, Y, Z of a ring table whose members have these home coordinates. -/
def extentsOf (ring : List (Nat × Nat)) (coords : List Coord) : Nat × Nat × Nat × Nat :=
  ((diesOf ring (ring.head?.map Prod.snd |>.getD 0)).length, (distinct (coords.map Coord.x)).length,
    (distinct (coords.map Coord.y)).length, (distinct (coords.map Coord.z)).length)

/-- Hierarchical indices of the members, in ring-table order (R189). -/
def hIndices (ring : List (Nat × Nat)) (coords : List Coord) : List Nat :=
  let xs := distinct (coords.map Coord.x)
  let ys := distinct (coords.map Coord.y)
  let zs := distinct (coords.map Coord.z)
  (ring.zip coords).map fun p =>
    ((posIn p.1.1 (diesOf ring p.1.2) * xs.length + posIn p.2.x xs) * ys.length + posIn p.2.y ys) * zs.length + posIn p.2.z zs

/-- The members form a complete box (R189): as many as p·X·Y·Z, on distinct places. -/
def isBox (ring : List (Nat × Nat)) (coords : List Coord) : Bool :=
  let e := extentsOf ring coords
  decide (ring.length = e.1 * e.2.1 * e.2.2.1 * e.2.2.2) && decide (hIndices ring coords).Nodup

/-- No coordinate varies above the level, and level 0 holds one rank only (R188). -/
def levelOk (level : Nat) (ring : List (Nat × Nat)) (coords : List Coord) : Bool :=
  let e := extentsOf ring coords
  (decide (1 ≤ level) || decide (e.2.1 ≤ 1)) && (decide (2 ≤ level) || decide (e.2.2.1 ≤ 1)) &&
    (decide (3 ≤ level) || decide (e.2.2.2 ≤ 1)) &&
    (decide (level ≠ 0) || ring.all fun e => decide (some e.2 = ring.head?.map Prod.snd))

/-- Every module has the same p, and p is 1, 2 or 4 (R187, R188). -/
def diesOk (ring : List (Nat × Nat)) : Bool :=
  let p := (extentsOf ring []).1
  decide (p ≠ 3) && decide (p ≠ 0) && ring.all fun e => decide ((diesOf ring e.2).length = p)

/-- The home coordinates of a rank (R330). -/
def Fold.home (f : Fold) (r : Nat) : Coord := BitVec.ofNat 18 (getLe f.homes (4 * r) 4)

/-- Ring table entries: die in [15:14], rank in [13:0] (R187). -/
def ringOf (b : Bytes) : List (Nat × Nat) :=
  (List.range (b.length / 2)).map fun i => let n := getLe b (2 * i) 2; (n / 2 ^ 14, n % 2 ^ 14)

/-- bits [63:0] of the SHA3-256 digest of the ring table (R188). -/
def memberHash (b : Bytes) : BitVec 64 := BitVec.ofNat 64 (getLe (sha3 b) 0 8)

/-! ### The table of groups (R187) -/

/-- A context's group. -/
def Mach.group (m : Mach) (c : CtxId) (id : Nat) : Option Group :=
  m.shut.groups.find? fun g => decide (g.ctx = c ∧ g.id = id)

/-- The group has an open collective on this module. -/
def Mach.groupOpen (m : Mach) (c : CtxId) (id : Nat) : Bool :=
  m.shut.colls.any fun k => decide (k.key.ctx = c ∧ k.key.group = id ∧ k.phase ≠ .place)

/-- Remove a group, with what is remembered of its collectives. -/
def Mach.dropGroup (m : Mach) (c : CtxId) (id : Nat) : Mach :=
  { m with shut := { m.shut with
      groups := m.shut.groups.filter fun g => !decide (g.ctx = c ∧ g.id = id),
      ended := m.shut.ended.filter fun (o : ShEnded) => !decide (o.key.ctx = c ∧ o.key.group = id) } }

/-- Change a group. -/
def Mach.modGroup (m : Mach) (c : CtxId) (id : Nat) (f : Group → Group) : Mach :=
  { m with shut := { m.shut with groups := m.shut.groups.map fun g => if g.ctx = c ∧ g.id = id then f g else g } }

/-- The checks of R188 that give reason 7. -/
def Mach.groupValid (m : Mach) (c : CtxId) (k : ConfSlot) (fold : Fold) (ring : List (Nat × Nat)) (coords : List Coord) : Bool :=
  let q := m.pools[(Fin.ofNat 64 k.pool : PoolId)]
  decide ring.Nodup && ring.all (fun e => (fold.rank e.2).isSome) &&
    ring.any (fun e => decide (some e.2 = fold.rankAt m.net.own)) && diesOk ring && isBox ring coords &&
    levelOk k.level ring coords && (decide (k.wire ≠ 0x11) || (decide (ring.length ≤ 8) && decide (k.level ≠ 3))) &&
    decide (k.proto = 1) && decide (q.memory ≠ 0) && decide (q.sizeLog2 = k.bobbinLog2 + 14) &&
    (match m.group c k.group with
     | some g => decide (g.epoch.toNat ≠ k.epoch)
     | none => decide (m.shut.groups.length < 256))

/-- DEFINE_GROUP: the definition, or how the slot fails. -/
def Mach.defineGroup (m : Mach) (c : CtxId) (k : ConfSlot) : Except Failure Group :=
  if m.groupOpen c k.group then .error { status := .badSlot, detail := badSlotDetail 6 k.group }
  else if !m.spadInWindow c k.ringAddr (2 * k.count) then .error { status := .windowViolation }
  else match m.spadBad k.ringAddr (2 * k.count) with
    | some w => .error { status := .uncorrectable, detail := spadIsland (w * 8), island := spadIsland (w * 8) }
    | none =>
      let b := m.spadRead k.ringAddr (2 * k.count)
      let ring := ringOf b
      let bad : Failure := { status := .badSlot, detail := badSlotDetail 7 k.group }
      match m.ctxFold c with
      | none => .error bad
      | some fold =>
        let coords := ring.map fun e => fold.home e.2
        if m.groupValid c k fold ring coords then
          .ok { ctx := c, id := k.group, ring := ring, coords := coords, epoch := BitVec.ofNat 16 k.epoch,
                proto := BitVec.ofNat 8 k.proto, wire := k.wire, pool := Fin.ofNat 64 k.pool, bobbinLog2 := k.bobbinLog2,
                level := k.level, hash := memberHash b, expected := 0 }
        else .error bad

/-! ### The two CONF rows (R128, R132, R188) -/

/-- The ring table that a DEFINE_GROUP reads. -/
def ConfSlot.ringRange (k : ConfSlot) : List (Nat × Nat) := if k.op = 0 then [(k.ringAddr, 2 * k.count)] else []

/-- The islands of a CONF slot: the Shuttle, and the path to its ring table (R11). -/
def ConfSlot.path (k : ConfSlot) : List IslandId := 128 :: k.ringRange.flatMap fun r => spadPath r.1 r.2

/-- A CONF slot of one op starts and ends in one step: its checks, its effect, its commit. -/
def confRow (op : Nat) (c : CtxId) (s : State) (f : ConfSlot → Mach → Except Failure Mach) : Host.Outcome State Fault Refusal :=
  runs s fun m =>
    match m.startable c .conf with
    | none => m
    | some q =>
      let k := parseConf q.bytes
      if k.op ≠ op ∨ !m.works ∨ !m.reachable k.path ∨ m.headAhead c .conf q ∨ !m.mayCommit c q then m
      else
        let m := (m.takeHead c .conf).wake k.path
        match f k m with
        | .ok m => (m.readSpads k.ringRange (some c)).commitSlot c q
        | .error e =>
          let m := if e.status = .uncorrectable then m.spadUe ((m.spadBad k.ringAddr (2 * k.count)).getD 0) (some c) else m
          m.failSlot c q e

/-- DEFINE_GROUP (R188): define or replace a group; the expected sequence is 0. -/
def execDefineGroup (c : CtxId) (s : State) : Host.Outcome State Fault Refusal :=
  confRow 0 c s fun k m => (m.defineGroup c k).map fun g =>
    let m := m.dropGroup c k.group
    { m with shut := { m.shut with groups := m.shut.groups ++ [g] } }

/-- RELEASE_GROUP (R188): an undefined group changes nothing. -/
def execReleaseGroup (c : CtxId) (s : State) : Host.Outcome State Fault Refusal :=
  confRow 1 c s fun k m =>
    if m.groupOpen c k.group then .error { status := .badSlot, detail := badSlotDetail 6 k.group }
    else .ok (m.dropGroup c k.group)

end Sys2Proof.Machine
end

