-- ==== Sys2Proof/Machine/ShuttleMsg.lean ====
section
/-! DEFINITION. Shuttle messages (R196, R205, R206), the shape of an open collective (R189, R195, R201 to R204), sending, and how
a collective ends (R213, R214). -/

namespace Sys2Proof.Machine

open Sys2Proof

/-! ### The header of R205 -/

/-- Fields of a Shuttle header. -/
structure ShHdr where
  desc : Nat := 0
  tally : Nat := 0
  value : Nat := 0
  seq : Nat := 0
  chunk : Nat := 0
  length : Nat := 0
  sender : Nat := 0
  epoch : Nat := 0
  proto : Nat := 0
  gid : Nat := 0
  hop : Nat := 0
  stage : Nat := 0
  inward : Bool := false
  backward : Bool := false
  nonfin : Bool := false
  emax : Int := 0
  crc : Nat := 0
  detail : Nat := 0
  status : Nat := 0
  mhash : Nat := 0
  kind : Nat := 0
  deriving DecidableEq, Repr

def shData : Nat := 1
def shAck : Nat := 2
def shNack : Nat := 3
def shScale : Nat := 4
def shScalar : Nat := 5
def shAbort : Nat := 6
def shStale : Nat := 7
def shResult : Nat := 8

/-- The 512 bits of a header. -/
def ShHdr.pack (h : ShHdr) : BitVec 512 :=
  BitVec.ofNat 512 (place h.desc 511 448 + place h.tally 447 384 + place h.value 383 320 + place h.seq 319 288 +
    place h.chunk 287 256 + place h.length 255 232 + place h.sender 231 216 + place h.epoch 215 200 + place h.proto 199 192 +
    place h.gid 191 180 + place h.hop 179 166 + place h.stage 165 164 + place (b2n h.inward) 163 163 +
    place (b2n h.backward) 162 162 + place (b2n h.nonfin) 161 161 + place (h.emax % 65536).toNat 159 144 +
    place h.crc 143 112 + place h.detail 111 80 + place h.status 79 72 + place h.mhash 71 8 + place h.kind 7 0)

/-- The fields of a header. -/
def shHdr (b : BitVec 512) : ShHdr :=
  let n := b.toNat
  { desc := bits n 511 448, tally := bits n 447 384, value := bits n 383 320, seq := bits n 319 288, chunk := bits n 287 256,
    length := bits n 255 232, sender := bits n 231 216, epoch := bits n 215 200, proto := bits n 199 192, gid := bits n 191 180,
    hop := bits n 179 166, stage := bits n 165 164, inward := bit n 163, backward := bit n 162, nonfin := bit n 161,
    emax := signed 16 (bits n 159 144), crc := bits n 143 112, detail := bits n 111 80, status := bits n 79 72,
    mhash := bits n 71 8, kind := bits n 7 0 }

/-- desc_hash and r of a collective (R196). -/
def describe (op srcFmt dstFmt wire count gid seq root norm : Nat) : Nat × Nat :=
  let g := gen count (seq + gid * 2 ^ 32) (op + srcFmt * 2 ^ 4 + dstFmt * 2 ^ 10 + wire * 2 ^ 16) (root + norm * 2 ^ 14)
  (g.1 + g.2.1 * 2 ^ 32, 2 + (g.2.2.1 + g.2.2.2 * 2 ^ 32) % (2 ^ 61 - 4))

/-! ### The Tally (R210) -/

/-- 2^61 − 1. -/
def tallyP : Nat := 2 ^ 61 - 1

/-- b^e modulo 2^61 − 1, for exponents below 2^fuel. -/
def powP (b : Nat) : Nat → Nat → Nat
  | 0, _ => 1
  | f + 1, e => if e = 0 then 1 else (if e % 2 = 1 then b else 1) * powP (b * b % tallyP) f (e / 2) % tallyP

/-- The Tally of elements from index i0. -/
def tally (r i0 : Nat) (xs : List Int) : Nat :=
  (xs.foldl (fun (a : Nat × Nat) x => ((a.1 + a.2 * (x % (tallyP : Int)).toNat) % tallyP, a.2 * r % tallyP))
    (0, powP (r % tallyP) 64 (i0 + 1))).1

/-! ### The shape of a collective (R189, R201) -/

/-- The slot of a collective. -/
def Coll.s (k : Coll) : ShutSlot := parseShut k.slot.bytes

/-- Group size G. -/
def Coll.size (k : Coll) : Nat := k.order.length

/-- Members below one position of level L: 0 package, 1 tray, 2 rack, 3 hall. -/
def Coll.rest (k : Coll) (lvl : Nat) : Nat :=
  match lvl with
  | 0 => k.extents.2.1 * k.extents.2.2.1 * k.extents.2.2.2
  | 1 => k.extents.2.2.1 * k.extents.2.2.2
  | 2 => k.extents.2.2.2
  | _ => 1

/-- Extent of a ring stage. -/
def Coll.ext (k : Coll) (st : Nat) : Nat :=
  match st with
  | 0 => k.extents.1
  | 1 => k.extents.2.1
  | 2 => k.extents.2.2.1
  | _ => k.extents.2.2.2

/-- Position of member h in a stage. -/
def Coll.digit (k : Coll) (st h : Nat) : Nat := h / k.rest st % k.ext st

/-- The axis of a ring stage is wrapped. -/
def Coll.wrapAt (k : Coll) (st : Nat) : Bool :=
  match st with
  | 1 => k.wrapped.1
  | 2 => k.wrapped.2.1
  | _ => k.wrapped.2.2

/-- Nonempty ring stages, outward order (R12, R201). -/
def Coll.stages (k : Coll) : List Nat := [1, 2, 3].filter fun st => decide (1 < k.ext st)

/-- Hierarchical index of the root of BROADCAST and REDUCE: root_rank at die position 0 (R185). -/
def Coll.rootH (k : Coll) : Nat :=
  (k.order.findIdx? fun e => decide (e.1 = k.s.root)).getD 0

/-- Out and back along a line: even places rising, odd places falling (R201). -/
def oxTurn {α : Type} (l : List α) : List α :=
  let p := l.zip (List.range l.length)
  ((p.filter fun e => e.2 % 2 = 0).map Prod.fst) ++ ((p.filter fun e => e.2 % 2 = 1).map Prod.fst).reverse

/-- Members of the stage instance of member h, in ring order (R201). -/
def Coll.ring (k : Coll) (st h : Nat) : List Nat :=
  let line := (hIndices k.group.ring k.group.coords).filter fun g =>
    decide (g - k.digit st g * k.rest st = h - k.digit st h * k.rest st)
  if k.wrapAt st then line else oxTurn line

/-- The member one step along a ring from h. -/
def ringStep (l : List Nat) (h : Nat) (back : Bool) : Nat :=
  l.getD ((posIn h l + (if back then l.length - 1 else 1)) % max 1 l.length) h

/-- A member of this module. -/
def Coll.member (k : Coll) (h : Nat) : Option ShMember := k.members.find? fun x => decide (x.h = h)

/-- Rank of member h. -/
def Coll.rankOf (k : Coll) (h : Nat) : Nat := (k.order.getD h (0, 0)).1

/-- Die of member h. -/
def Coll.dieOf (k : Coll) (h : Nat) : Nat := (k.order.getD h (0, 0)).2

/-- The op reduces. -/
def Coll.reduces (k : Coll) : Bool := k.s.reduces

/-- The group's wire format is B8 and the op reduces. -/
def Coll.b8 (k : Coll) : Bool := decide (k.group.wire = 0x11) && k.reduces

/-- Bytes of a source as its rows lie, packed. -/
def Coll.srcBytes (k : Coll) : Nat := k.s.src.rows * k.s.src.rowBytes

/-- Bytes of an MX block as it travels: its elements, then its scale. DESIGN CHOICE: the spec does not lay MX data out in a bobbin
(log 73). -/
def Fmt.blockBytes (f : Fmt) : Nat := 4 * f.bits + 1

/-- Bytes of n positions of the data that travels: 4 each for reducing operations, the elements for others. -/
def Coll.posBytes (k : Coll) (n : Nat) : Nat :=
  let f := k.s.src.format
  if k.reduces then 4 * n else if f.isMx then n / 32 * f.blockBytes else n * f.bits / 8

/-- Positions that a number of bytes holds. -/
def Coll.positions (k : Coll) (len : Nat) : Nat :=
  let f := k.s.src.format
  if k.reduces then len / 4 else if f.isMx then len / f.blockBytes * 32 else len * 8 / max 1 f.bits

/-- E; 0 for BARRIER. -/
def Coll.count (k : Coll) : Nat := if k.s.op = 5 then 0 else k.s.src.count

/-- Piece size q (R189); for ALL_GATHER a member's whole source, rounded up so that pieces start at a chunk (log 21). -/
def Coll.q (k : Coll) : Nat :=
  if k.s.op = 2 then roundUp k.count 32 else cdiv k.count (32 * max 1 k.size) * 32

/-- Elements of the piece of member h: first, count. -/
def Coll.piece (k : Coll) (h : Nat) : Nat × Nat :=
  if k.s.op = 2 then (h * k.q, k.count) else (h * k.q, min k.q (k.count - h * k.q))

/-- Elements that member h holds at a level: the pieces of the members that share its positions so far. -/
def Coll.spans (k : Coll) (lvl h : Nat) : List (Nat × Nat) :=
  let n := k.rest lvl
  let h0 := h / max 1 n * n
  if k.s.op = 2 then (List.range n).map fun i => k.piece (h0 + i)
  else [(h0 * k.q, min (n * k.q) (k.count - h0 * k.q))]

/-- Bobbin size. -/
def Coll.bobbin (k : Coll) : Nat := 2 ^ (k.group.bobbinLog2 + 14)

/-- Positions a bobbin holds (R206). -/
def Coll.cap (k : Coll) : Nat := if k.b8 then k.bobbin / 544 * 512 else k.positions k.bobbin

/-- A span cut into bobbins. -/
def cutSpan (cap : Nat) (p : Nat × Nat) : List (Nat × Nat) :=
  (List.range (cdiv p.2 (max 1 cap))).map fun i => (p.1 + i * cap, min cap (p.2 - i * cap))

/-- The half of a stage piece that travels in one direction (R202). The split lies at a chunk (log 21). -/
def halfOf (back : Bool) (p : Nat × Nat) : Nat × Nat :=
  let f := min p.2 (cdiv p.2 64 * 32)
  if back then (p.1 + f, p.2 - f) else (p.1, f)

/-- The stage piece that a member owns: what it holds after the stage. -/
def Coll.stagePiece (k : Coll) (st h : Nat) : Nat × Nat := (k.spans st h).headD (0, 0)

/-! ### The handshake tree (R195) -/

/-- Largest power of two below n. -/
def treeHalf (n : Nat) : Nat := 2 ^ (clog2 n - 1)

/-- Parent of member m in the node a to b − 1. -/
def parentGo : Nat → Nat → Nat → Nat → Nat
  | 0, a, _, _ => a
  | f + 1, a, b, m =>
    let mid := a + treeHalf (b - a)
    if m = mid then a else if m < mid then parentGo f a mid m else parentGo f mid b m

/-- Parent of member m > 0. -/
def Coll.parent (k : Coll) (m : Nat) : Nat := parentGo 32 0 k.size m

/-- Right-subtree heads of the node a to b − 1 whose left end is a, largest subtree first. -/
def headsGo : Nat → Nat → Nat → List Nat
  | 0, _, _ => []
  | f + 1, a, b => if b ≤ a + 1 then [] else (a + treeHalf (b - a)) :: headsGo f a (a + treeHalf (b - a))

/-- Children of member m, closest first: the order in which their reports are combined. -/
def childGo : Nat → Nat → Nat → Nat → List Nat
  | 0, _, _, _ => []
  | f + 1, a, b, m =>
    if m = a then (headsGo 32 a b).reverse
    else
      let mid := a + treeHalf (b - a)
      if m < mid then childGo f a mid m else childGo f mid b m

/-- Children of a member. -/
def Coll.children (k : Coll) (m : Nat) : List Nat := childGo 32 0 k.size m

/-! ### Sending (R205, R206) -/

/-- desc_hash and Tally base of a collective. -/
def Coll.describe (k : Coll) : Nat × Nat :=
  let s := k.s
  Machine.describe s.op s.src.fmt (if s.op = 5 then 0 else s.dstFmt) k.group.wire (if s.op = 5 then 0 else s.src.count) s.group
    s.seq s.root (b2n s.norm)

/-- Header fields that every message of a member carries. -/
def Coll.hdr (k : Coll) (h : Nat) : ShHdr :=
  { desc := k.describe.1, seq := k.key.seq.toNat, sender := h, epoch := k.group.epoch.toNat, proto := k.group.proto.toNat,
    gid := k.key.group, mhash := k.group.hash.toNat }

/-- Fill in the length and the CRC of the data. -/
def ShHdr.withData (h : ShHdr) (d : Bytes) : ShHdr := { h with length := d.length, crc := (crc32 d).toNat }

/-- Packet class of a kind (R244). -/
def shClass (kind : Nat) : Nat := if kind = shAck ∨ kind = shNack ∨ kind = shStale then clsRsp else clsCol

/-- The packets of one message: the header, then 4 KiB of data each, back to back (R206). -/
def Mach.shPackets (m : Mach) (c : CtxId) (fold : Nat) (far : Coord) (epoch : Nat) (hdr : ShHdr) (data : Bytes) : Mach :=
  let p : Hdr := { epoch := epoch, fold := fold, ty := tyBobbin, cls := shClass hdr.kind, ctx := c.val, dst := far }
  (chunksOf 4096 data.length data).foldl (fun m b => m.inject { p with length := b.length } b)
    (m.inject { p with length := 64 } (natLe 64 hdr.pack.toNat))

/-- Send a message to a module: to itself at once. -/
def Mach.shTo (m : Mach) (c : CtxId) (fold : Nat) (far : Coord) (epoch : Nat) (hdr : ShHdr) (data : Bytes) : Mach :=
  if far = m.net.own then { m with shut := { m.shut with rx := m.shut.rx ++ [⟨far, c, fold, hdr.pack, data⟩] } }
  else m.shPackets c fold far epoch hdr data

/-- Send a message to a rank, if it has a valid entry and a route (R209, R256). -/
def Mach.shSend (m : Mach) (c : CtxId) (rank : Nat) (hdr : ShHdr) (data : Bytes) : Option Mach :=
  match m.rankOf c rank with
  | none => none
  | some far => if m.canReach (shClass hdr.kind) far.1 then some (m.shTo c (m.foldId c) far.1 far.2 hdr data) else none

/-- Hierarchical indices of this module's members of a group, rising. -/
def Mach.ownMembers (m : Mach) (d : Group) : List Nat :=
  distinct (((hIndices d.ring d.coords).zip d.ring).filterMap fun e => if some e.2.2 = m.ownRank d.ctx then some e.1 else none)

/-- The index under which this module answers a message where no member of it is meant: that of its lowest member; 0 where it does
not hold the group (log 22). -/
def Mach.ownIndex (m : Mach) (g : ShMsg) : Nat :=
  match m.group g.ctx (shHdr g.hdr).gid with
  | some d => (m.ownMembers d).headD 0
  | none => 0

/-- Answer a message: ACK, NACK or STALE to the module it came from, from the member `own`. The fields that tell the message apart
are echoed (log 22). -/
def Mach.shAnswer (m : Mach) (g : ShMsg) (own : Nat) (f : ShHdr → ShHdr) : Mach :=
  let h := { shHdr g.hdr with
    sender := own, length := 0, crc := 0, tally := 0, value := 0, nonfin := false, emax := 0, detail := 0, status := 0 }
  let epoch := match (m.ctxFold g.ctx).bind (fun f => (f.rankAt g.src).bind f.rank) with
    | some e => e.2
    | none => 0
  if m.canReach clsRsp g.src then m.shTo g.ctx g.fold g.src epoch (f h) [] else m

/-- Acknowledge a message (R207, R208). -/
def Mach.shAckTo (m : Mach) (g : ShMsg) (own : Nat) : Mach := m.shAnswer g own fun h => { h with kind := shAck }

/-- Refuse a message. Its status is some code of R156: which, and with what detail, is not given (free values, log 22). -/
def Mach.shNackTo (m : Mach) (g : ShMsg) (own : Nat) : Mach :=
  (m.shAnswer g own fun h => { h with
    kind := shNack, status := Config.freeWord m.freeCtr % 0x13, detail := Config.freeWord (m.freeCtr + 1) % 2 ^ 32 }).drew.drew

/-- The kind that a NACK refuses: bobbins are inward or of a ring stage, and of the handshake messages a NACK refuses only a SCALE,
since who sends a member anything else knows it admitted (R200, R204). -/
def ShHdr.refusedKind (h : ShHdr) : Nat := if h.stage = 0 ∧ !h.inward then shScale else shData

/-- A STALE notice: STALE_ROLE, detail the receiver's rank (R190). -/
def Mach.shStaleTo (m : Mach) (g : ShMsg) : Mach :=
  m.shAnswer g (m.ownIndex g) fun h =>
    { h with kind := shStale, status := Status.staleRole.code, detail := (m.ownRank g.ctx).getD 0 }

/-! ### Open collectives -/

/-- Find a collective. -/
def Mach.coll (m : Mach) (key : CollKey) : Option Coll := m.shut.colls.find? fun k => decide (k.key = key)

/-- Change a collective. -/
def Mach.modColl (m : Mach) (key : CollKey) (f : Coll → Coll) : Mach :=
  { m with shut := { m.shut with colls := m.shut.colls.map fun k => if k.key = key then f k else k } }

/-- Change a member of a collective. -/
def Mach.modMember (m : Mach) (key : CollKey) (h : Nat) (f : ShMember → ShMember) : Mach :=
  m.modColl key fun k => { k with members := k.members.map fun x => if x.h = h then f x else x }

/-- Open collectives: those that hold one of the 16 places (R193). -/
def Mach.openColls (m : Mach) : List Coll := m.shut.colls.filter fun k => decide (k.phase ≠ .place)

/-- The group of a slot in line is still defined as the slot found it at its start; without it there is no admission (R193). -/
def Mach.groupStands (m : Mach) (k : Coll) : Bool :=
  match m.group k.key.ctx k.key.group with
  | some g => decide (g.epoch = k.group.epoch)
  | none => false

/-- The first in line for a place: best class, then the order in which slots came. -/
def Mach.firstInLine (m : Mach) : List Coll → Option Coll
  | [] => none
  | k :: rest =>
    if k.phase ≠ .place ∨ !m.groupStands k then m.firstInLine rest
    else match m.firstInLine rest with
      | some j => if j.slot.cls < k.slot.cls then some j else some k
      | none => some k

/-- Bobbins a collective reserves: for each member here, its piece after its first nonempty ring stage, and 16 (R193). -/
def Coll.need (k : Coll) : Nat :=
  (k.members.map fun x =>
    let q1 := match k.stages with
      | [] => 0
      | st :: _ => (k.stagePiece st x.h).2
    16 + if !k.reduces then 0 else if k.b8 then cdiv (17 * q1) (16 * k.bobbin) else cdiv (4 * q1) k.bobbin).sum

/-- Give places to slots in line, each then asking for its reservation (R193). -/
def Mach.givePlaces (m : Mach) : Nat → Mach
  | 0 => m
  | n + 1 =>
    if 16 ≤ m.openColls.length then m
    else match m.firstInLine m.shut.colls with
      | none => m
      | some k =>
        let m := m.modColl k.key fun k => { k with phase := .reservation }
        let r := m.bpmAsk k.group.pool ⟨rqShuttle, k.need, .admission k.key⟩
        let m := if r.2 then r.1.modColl k.key fun x => { x with reserved := x.need } else r.1
        m.givePlaces n

/-- Free places are taken. -/
def Mach.tryPlaces (m : Mach) : Mach := m.givePlaces m.shut.colls.length

/-- The key of a message. -/
def keyOf (c : CtxId) (h : ShHdr) : CollKey := ⟨c, h.gid, BitVec.ofNat 32 h.seq⟩

/-- Buffers that the bobbins of a collective hold: those in flight, and those waiting to go on. -/
def Coll.buffers (k : Coll) : List Nat :=
  k.sent.filterMap ShSent.buf ++ k.members.flatMap fun x => x.tasks.filterMap fun t => t.held.bind ShHeld.buf

/-- A collective ends: its buffers, its reservation and its place return; what waited for it goes. `noticed`: this module has passed
an ABORT notice of it on (R213). -/
def Mach.endColl (m : Mach) (k : Coll) (noticed : Bool) : Mach :=
  let bufs := k.buffers
  let m := bufs.foldl (fun m i => m.bpmFree k.group.pool i) m
  let m := m.bpmReturn k.group.pool rqShuttle (k.reserved - bufs.length)
  let m := m.bpmWithdraw fun w => decide (w = BpmWhy.admission k.key)
  { m with shut := { m.shut with
      colls := m.shut.colls.filter fun (x : Coll) => !decide (x.key = k.key),
      ended := ⟨k.key, decide (k.phase = CollPhase.admitted), (k.members.filter ShMember.committed).length, noticed⟩ :: m.shut.ended,
      refused := m.shut.refused.filter fun (r : CollKey × ShSent) => !decide (r.1 = k.key),
      early := m.shut.early.filter fun (g : ShMsg) => !decide (keyOf g.ctx (shHdr g.hdr) = k.key) } }.tryPlaces

/-- Bytes of a member's destination (R185). -/
def Coll.dstBytes (k : Coll) (h : Nat) : Nat :=
  match k.s.op with
  | 0 => k.count * (k.s.dstFormat.bits / 8)
  | 1 => (k.piece h).2 * (k.s.dstFormat.bits / 8)
  | 2 => k.size * k.srcBytes
  | 3 => k.srcBytes
  | 4 => if h = k.rootH then k.count * (k.s.dstFormat.bits / 8) else 0
  | 5 => 0
  | _ => 8

/-- A scratchpad address as it lies on a die (R186). -/
def dieAddr (die a : Nat) : Nat := die * 2 ^ 29 + a % 2 ^ 29

/-- The destination of the lowest member die, for the fault record (R155). -/
def Coll.faultRange (k : Coll) : FaultRange :=
  match k.members.find? fun x => decide (k.dstBytes x.h ≠ 0) with
  | some x => spadRange (dieAddr x.die k.s.dstAddr) (k.dstBytes x.h)
  | none => noRange

/-- Destinations and norms of members that have their result and have not committed are undefined (R199, R213). -/
def Mach.undefineColl (m : Mach) (k : Coll) : Mach :=
  k.members.foldl (fun m x =>
    if x.result.isNone ∨ x.committed then m
    else
      let m := if k.dstBytes x.h = 0 then m else m.spadUndefine (dieAddr x.die k.s.dstAddr) (k.dstBytes x.h)
      if k.s.norm then m.spadUndefine (dieAddr x.die k.s.normAddr) 8 else m) m

/-- A collective ends without its slot's commit. -/
def Mach.closeColl (m : Mach) (k : Coll) (noticed : Bool) : Mach := (m.undefineColl k).endColl k noticed

/-- Fault the context of a collective's slot; the Drover's barrier names engine 7 and the STEP_BOUNDARY word (R297). -/
def Mach.faultColl (m : Mach) (k : Coll) (st detail isl : Nat) : Mach :=
  let c := k.key.ctx
  if k.drover then
    (m.modCtx c fun x => { x with stepHold := .none }).faultCtx c ⟨BitVec.ofNat 8 st, BitVec.ofNat 32 detail, 7, k.slot.seq, 0,
      k.slot.step, true, noRange, noRange, BitVec.ofNat 8 isl, m.now⟩
  else
    let ord := (m.ctxs[c]).words.any fun w => decide (w.uid = k.slot.uid) && w.isOrdered
    m.faultCtx c ⟨BitVec.ofNat 8 st, BitVec.ofNat 32 detail, k.slot.eng.num.val, k.slot.seq,
      BitVec.ofNat 12 (emitId (ctlOf k.slot.bytes)), k.slot.step, ord, k.faultRange, noRange, BitVec.ofNat 8 isl, m.now⟩

/-- A TALLY_MISMATCH whose named hop is a member of this module sets bit 3 of suspect_cause (R338, R339). -/
def Mach.tallyNamed (m : Mach) (c : CtxId) (st detail : Nat) : Mach :=
  if st = Status.tallyMismatch.code ∧ some detail = m.ownRank c then
    { m with goose := { m.goose with cause := m.goose.cause ||| 8 } }
  else m

/-- A collective fails on this module. -/
def Mach.failColl (m : Mach) (key : CollKey) (st detail : Nat) (noticed : Bool := false) (isl : Nat := islandOf st detail) : Mach :=
  match m.coll key with
  | none => m
  | some k => ((m.closeColl k noticed).faultColl k st detail isl).tallyNamed key.ctx st detail

/-- Send ABORT notices to some members that do not lie on this module; a member without a route gets none. -/
def Mach.sendAborts (m : Mach) (c : CtxId) (hdr : ShHdr) (ranks : List Nat) : Mach :=
  ranks.foldl (fun m r => if some r = m.ownRank c then m else (m.shSend c r hdr []).getD m) m

/-- Ranks of the children of this module's members. -/
def Coll.below (k : Coll) : List Nat := k.members.flatMap fun x => (k.children x.h).map k.rankOf

/-- Member 0 lies on this module. -/
def Coll.holdsRoot (k : Coll) : Bool := k.members.any fun x => decide (x.h = 0)

/-- The ABORT notice of a group abort: to member 0, which passes it down the tree (R213). -/
def Mach.notify (m : Mach) (k : Coll) (st detail : Nat) : Mach :=
  let h := (k.members.head?.map ShMember.h).getD 0
  m.sendAborts k.key.ctx { k.hdr h with kind := shAbort, status := st, detail := detail }
    (if k.holdsRoot then k.below else [k.rankOf 0])

/-- A member starts a group abort, and its own module's slot fails with the same status (R213). -/
def Mach.groupAbort (m : Mach) (key : CollKey) (st detail : Nat) (isl : Nat := islandOf st detail) : Mach :=
  match m.coll key with
  | none => m
  | some k => (m.notify k st detail).failColl key st detail k.holdsRoot isl

/-- Rank in [13:0] and die in [17:16] of a member (R197). -/
def Coll.memberDetail (k : Coll) (h : Nat) : Nat := k.rankOf h + k.dieOf h * 2 ^ 16

/-- A stopped slot withdraws: a group abort whose status is COLLECTIVE_MISMATCH, without a fault of its own (R213, R214). -/
def Mach.withdraw (m : Mach) (key : CollKey) : Mach :=
  match m.coll key with
  | none => m
  | some k =>
    let h := (k.members.head?.map ShMember.h).getD 0
    (m.notify k Status.collectiveMismatch.code (k.memberDetail h)).closeColl k k.holdsRoot

/-- Send a message of a member to another; without a route the collective fails with LINK_LOST (R209). Handshake messages are
kept, so that a refused one can be sent again (R200). -/
def Mach.shPost (m : Mach) (key : CollKey) (h dest : Nat) (hdr : ShHdr) (data : Bytes) (buf : Option Nat := none) : Mach :=
  match m.coll key with
  | none => m
  | some k =>
    let hdr := hdr.withData data
    match m.shSend key.ctx (k.rankOf dest) hdr data with
    | none => m.groupAbort key Status.linkLost.code (k.rankOf dest)
    | some m =>
      let e : ShSent := ⟨m.shut.nextId, h, dest, hdr.pack, data, 0, buf⟩
      let m := m.modColl key fun k => { k with sent := k.sent ++ [e] }
      { m with shut := { m.shut with nextId := m.shut.nextId + 1 } }

end Sys2Proof.Machine
end

