-- ==== Sys2Proof/Machine/VecMath.lean ====
section
/-! DEFINITION. The real functions of the vector engine (R166, R167), as values close enough that one rounding to FP32 gives
the correctly rounded result, or exact up to a sticky bit. -/

namespace Sys2Proof.Machine

open Sys2Proof

/-! ### Quotients and roots, exact up to a sticky bit -/

/-- A magnitude v × 2^e with a sticky half unit where something was dropped. -/
def stickyNum (s : Bool) (v : Nat) (e : Int) (exact : Bool) : Num := .fin s (2 * v + (if exact then 0 else 1)) (e - 1)

/-- x / y (R166). -/
def Num.div (x y : Num) : Num :=
  match x, y with
  | .nan, _ => .nan
  | _, .nan => .nan
  | .inf _, .inf _ => .nan
  | .inf s, .fin t _ _ => .inf (s != t)
  | .fin s _ _, .inf t => .fin (s != t) 0 0
  | .fin s m e, .fin t n f =>
    if n = 0 then (if m = 0 then .nan else .inf (s != t))
    else
      let k := Nat.log2 n + 140
      let d := m * 2 ^ k
      stickyNum (s != t) (d / n) (e - f - k) (decide (d % n = 0))

/-- sqrt (R166, R167). -/
def Num.sqrt : Num → Num
  | .nan => .nan
  | .inf s => if s then .nan else .inf false
  | .fin s m e =>
    if m = 0 then .fin s 0 0
    else if s then .nan
    else
      let odd := decide (e % 2 ≠ 0)
      let d := (if odd then 2 * m else m) * 4 ^ 100
      let v := Nat.sqrt d
      stickyNum false v ((if odd then e - 1 else e) / 2 - 100) (decide (v * v = d))

/-- rsqrt (R166, R167). -/
def Num.rsqrt : Num → Num
  | .nan => .nan
  | .inf s => if s then .nan else .fin false 0 0
  | .fin s m e =>
    if m = 0 then .inf s
    else if s then .nan
    else
      let odd := decide (e % 2 ≠ 0)
      let n := if odd then 2 * m else m
      let k := Nat.log2 n + 100
      let v := Nat.sqrt (4 ^ k / n)
      stickyNum false v (-(k : Int) - (if odd then e - 1 else e) / 2) (decide (v * v * n = 4 ^ k))

/-- recip (R166, R167). -/
def Num.recip (x : Num) : Num := (Num.ofInt 1).div x

/-! ### Functions in fixed point of 320 fraction bits -/

/-- 0.5. -/
def vHalf : Num := .fin false 1 (-1)

/-- 1. -/
def fixOne : Int := 2 ^ 320

/-- ln 2 in fixed point. -/
def fixLn2 : Int := 1480553391661173448385607439722553250922680800745876974795605978609098082859138712941075737848984

/-- 2 / √π in fixed point. -/
def fixErfC : Int := 2410203272519249216264429303418431786590919952803993071303316359311055940753903742343790935809570

/-- A finite value in fixed point. -/
def Num.fix : Num → Int
  | .fin s m e =>
    let v : Int := if -320 ≤ e then (m * 2 ^ (e + 320).toNat : Nat) else (m / 2 ^ (-320 - e).toNat : Nat)
    if s then -v else v
  | _ => 0

/-- A fixed-point number times 2^k, as a value. -/
def ofFix (v : Int) (k : Int := 0) : Num := .fin (decide (v < 0)) v.natAbs (k - 320)

/-- 1 + r/n (1 + r/(n+1) (…)). -/
def expSeries (r : Int) : Nat → Nat → Int
  | 0, _ => fixOne
  | f + 1, n => fixOne + r * expSeries r f (n + 1) / (n * fixOne)

/-- e^x for a finite x of moderate size. -/
def expFin (x : Num) : Num :=
  let v := x.fix
  ofFix (expSeries (v % fixLn2) 90 1) (v / fixLn2)

/-- exp (R166, R167). -/
def Num.expF (x : Num) : Num :=
  match x with
  | .nan => .nan
  | .inf s => if s then .fin false 0 0 else .inf false
  | .fin _ m _ =>
    if m = 0 then Num.ofInt 1
    else if (Num.ofInt 90).lt x then .fin false 1 200
    else if x.lt (Num.ofInt (-120)) then .fin false 1 (-200)
    else expFin x

/-- z + z³/3 + z⁵/5 + …, from the term t of index n. -/
def atanhSeries (z2 : Int) : Nat → Int → Nat → Int
  | 0, _, _ => 0
  | f + 1, t, n => t / n + atanhSeries z2 f (t * z2 / fixOne) (n + 2)

/-- log (R166, R167). -/
def Num.logF (x : Num) : Num :=
  match x with
  | .nan => .nan
  | .inf s => if s then .nan else .inf false
  | .fin s m e =>
    if m = 0 then .inf true
    else if s then .nan
    else
      let l := Nat.log2 m
      let up := decide (4 * 2 ^ l < 3 * m)
      let b := if up then l + 1 else l
      let z : Int := ((m : Int) - (2 ^ b : Nat)) * fixOne / ((m : Int) + (2 ^ b : Nat))
      let v := (e + b) * fixLn2 + 2 * atanhSeries (z * z / fixOne) 80 z 1
      if v = 0 then .fin false 0 0 else ofFix v

/-- sigmoid (R166, R167). Below −120 it lies far under half the smallest subnormal, above 120 within 2⁻¹⁷⁰ of 1. -/
def Num.sigmoidF (x : Num) : Num :=
  match x with
  | .nan => .nan
  | .inf s => if s then .fin false 0 0 else Num.ofInt 1
  | .fin _ m _ =>
    if m = 0 then vHalf
    else if x.lt (Num.ofInt (-120)) then .fin false 1 (-170)
    else if (Num.ofInt 120).lt x then Num.ofInt 1
    else ((Num.ofInt 1).add (expFin x.neg)).recip

/-- tanh (R166, R167). -/
def Num.tanhF (x : Num) : Num :=
  match x with
  | .nan => .nan
  | .inf s => Num.ofInt (if s then -1 else 1)
  | .fin s m e =>
    if m = 0 then x
    else if (Num.ofInt 30).lt x.abs then Num.ofInt (if s then -1 else 1)
    else
      let g := expFin (.fin s m (e + 1))
      (g.add (Num.ofInt (-1))).div (g.add (Num.ofInt 1))

/-- t/(1) − … : the series of erf from the term t of index n. -/
def erfSeries (x2 : Int) : Nat → Int → Nat → Int
  | 0, _, _ => 0
  | f + 1, t, n => t / (2 * n + 1) - erfSeries x2 f (t * x2 / (fixOne * (n + 1))) (n + 1)

/-- erf (R166, R167). -/
def Num.erfF (x : Num) : Num :=
  match x with
  | .nan => .nan
  | .inf s => Num.ofInt (if s then -1 else 1)
  | .fin s m _ =>
    if m = 0 then x
    else if (Num.ofInt 4).lt x.abs then Num.ofInt (if s then -1 else 1)
    else
      let v := x.abs.fix
      let r := ofFix (erfSeries (v * v / fixOne) 180 v 0 * fixErfC / fixOne)
      if s then r.neg else r

/-! ### max and min (R167) -/

/-- max: NaN if either operand is NaN; +0 above −0. -/
def Num.maxF (x y : Num) : Num :=
  if x.isNan || y.isNan then .nan
  else if x.isZero && y.isZero then (if x.isNeg then y else x)
  else if x.lt y then y else x

/-- min: NaN if either operand is NaN; −0 below +0. -/
def Num.minF (x y : Num) : Num :=
  if x.isNan || y.isNan then .nan
  else if x.isZero && y.isZero then (if x.isNeg then x else y)
  else if y.lt x then y else x

/-! ### Arithmetic in an operation type (R166) -/

def Fmt.vadd (t : Fmt) (x y : Num) : Num := t.rnd (x.add y)
def Fmt.vsub (t : Fmt) (x y : Num) : Num := t.rnd (x.add y.neg)
def Fmt.vmul (t : Fmt) (x y : Num) : Num := t.rnd (x.mul y)
def Fmt.vdiv (t : Fmt) (x y : Num) : Num := t.rnd (x.div y)

/-- x × y + z rounded once. -/
def Fmt.vfma (t : Fmt) (x y z : Num) : Num := t.rnd ((x.mul y).add z)

/-- The fixed tree of R168. -/
def treeOf (op : Num → Num → Num) : Nat → List Num → Num
  | 0, _ => .nan
  | f + 1, l =>
    if l.length ≤ 1 then l.headD .nan
    else
      let h := 2 ^ Nat.log2 (l.length - 1)
      op (treeOf op f (l.take h)) (treeOf op f (l.drop h))

/-- tree(x, add) in an operation type. -/
def Fmt.treeAdd (t : Fmt) (l : List Num) : Num := treeOf t.vadd 64 l

/-- tree(x, max). -/
def treeMax (l : List Num) : Num := treeOf Num.maxF 64 l

end Sys2Proof.Machine
end

