-- ==== Sys2Proof/Machine/ShuttleData.lean ====
section
/-! DEFINITION. What a collective computes and moves (R45 to R49, R198, R201 to R204, R210, R212, R216, R217): contributions,
integers, bobbins and their Tally, the stages, the bytes a member writes. -/

namespace Sys2Proof.Machine

open Sys2Proof

/-! ### What the members here read and write (R186) -/

/-- Ranges a member die reads and writes: kind, range; kind 0 source, 1 index tensor, 2 destination, 3 norm, 4 residual. -/
def Coll.ranges (k : Coll) (x : ShMember) : List (Nat × Nat × Nat) :=
  let s := k.s
  let t := s.src.atDie x.die
  let src := if s.op = 5 ∨ (s.op = 3 ∧ x.h ≠ k.rootH) then []
    else (0, t.span t.addr) :: (if t.indexAddr = 0 then [] else [(1, t.indexAddr, t.indexBytes)])
  let n := if s.op = 1 then k.q * (s.dstFormat.bits / 8) else k.dstBytes x.h
  src ++ (if n = 0 then [] else [(2, dieAddr x.die s.dstAddr, n)]) ++
    (if s.norm then [(3, dieAddr x.die s.normAddr, 8)] else []) ++
    (if s.residual = 0 then [] else [(4, dieAddr x.die s.residual, 4 * s.src.count)])

/-- The islands of a collective: the Shuttle, the crossbar, the way to what its members here read and write (R9, R11). -/
def Coll.path (k : Coll) : List IslandId :=
  128 :: 126 :: k.members.flatMap fun x => (k.ranges x).flatMap fun r => spadPath r.2.1 r.2.2

/-! ### Contributions (R186, R198, R216) -/

/-- Element i of a tensor in linear order: the address of its row, its place in the row. -/
def Mach.elemAt (m : Mach) (t : Td) (i : Nat) : Nat × Nat := (t.rowAddr (m.indexOf t) t.addr (i / t.size0), i % t.size0)

/-- The bytes that n elements of a tensor from `first` lie in; of an MX tensor whole blocks, each its elements and its scale. -/
def Mach.elemRanges (m : Mach) (t : Td) (first n : Nat) : List (Nat × Nat) :=
  let f := t.format
  if f.isMx then (List.range (cdiv n 32)).flatMap fun j =>
    let e := m.elemAt t (first + 32 * j)
    let p := elemPlace f t.size0 e.2
    [(e.1 + p.1, 4 * f.bits), (e.1 + p.2.2, 1)]
  else (List.range n).map fun j => let e := m.elemAt t (first + j); (e.1 + e.2 * f.bits / 8, f.bits / 8)

/-- What a member reads for n elements from `first`: its index tensor, its source, its residuals. -/
def Mach.srcRanges (m : Mach) (k : Coll) (die first n : Nat) : List (Nat × Nat) :=
  let t := k.s.src.atDie die
  t.indexRange ++ m.elemRanges t first n ++ if k.b8 then [(dieAddr die k.s.residual + 4 * first, 4 * n)] else []

/-- Why a collective fails from within: status, detail, and whether its group is told (R213). -/
structure ShFail where
  st : Nat
  detail : Nat
  tell : Bool
  deriving DecidableEq, Repr

/-- The collective fails. -/
def Mach.collFails (m : Mach) (key : CollKey) (e : ShFail) : Mach :=
  if e.tell then m.groupAbort key e.st e.detail else m.failColl key e.st e.detail

/-- Read ranges of scratchpad for a collective: what ECC corrects, or the uncorrectable error that fails it (R80). -/
def Mach.readFor (m : Mach) (c : CtxId) (rs : List (Nat × Nat)) : Mach × Option ShFail :=
  match m.badSpads rs with
  | some w => (m.spadUe w (some c), some ⟨Status.uncorrectable.code, spadIsland (w * 8), false⟩)
  | none => (m.readSpads rs (some c), none)

/-- FP32 values from an address. -/
def Mach.fp32s (m : Mach) (a n : Nat) : List Num := (List.range n).map fun i => Fmt.decode .fp32 (leNat (m.spadRead (a + 4 * i) 4))

/-- A member's input from element `first`: its source, or x′ under B8 (R216). -/
def Mach.inputs (m : Mach) (k : Coll) (die first n : Nat) : List Num :=
  let t := k.s.src.atDie die
  let xs := (List.range n).map fun j => let e := m.elemAt t (first + j); elemOf m.spadRead t.format t.size0 e.1 e.2
  if k.b8 then (xs.zip (m.fp32s (dieAddr die k.s.residual + 4 * first) n)).map fun p => Fmt.vadd .fp32 p.1 p.2 else xs

/-- A member's source bytes from element `first`, as they travel. -/
def Mach.srcData (m : Mach) (k : Coll) (die first n : Nat) : Bytes :=
  (m.elemRanges (k.s.src.atDie die) first n).flatMap fun r => m.spadRead r.1 r.2

/-- Exponent that a contribution reports (R45). DESIGN CHOICE: one with no finite nonzero element, whether zeros or infinities and
NaNs, reports -512; the flag tells the latter apart (log 74). -/
def reportExp (xs : List Num) : Int := (maxExp xs).getD (-512)

/-- A member's report (R45, R198), naming the member itself. -/
def Mach.report (m : Mach) (k : Coll) (x : ShMember) : Report :=
  if !k.reduces then ⟨[-512], false, x.h + 1⟩
  else
    let xs := m.inputs k x.die 0 k.s.src.count
    let bad := xs.any fun v => !v.finite
    if k.b8 then ⟨(chunksOf 32 xs.length xs).map reportExp, bad, x.h + 1⟩ else ⟨[reportExp xs], bad, x.h + 1⟩

/-! ### Shared-scale integers (R46 to R48) -/

/-- L: ⌈log₂ G⌉. -/
def Coll.lg (k : Coll) : Nat := clog2 k.size

/-- Scale exponent of element i under the agreed report. -/
def Coll.scale (k : Coll) (r : Report) (i : Nat) : Int :=
  if k.b8 then r.emax.getD (i / 32) (-512) + (k.lg : Int) + 1 - 7 else r.emax.getD 0 (-512) + (k.lg : Int) + 1 - 31

/-- Integers of a contribution's elements from `first`, and whether each was clamped. -/
def Coll.quant (k : Coll) (r : Report) (first : Nat) (xs : List Num) : List (Int × Bool) :=
  (xs.zip (List.range xs.length)).map fun p => wireQ (if k.b8 then 7 else 31) k.lg (k.scale r (first + p.2)) p.1

/-! ### Tables by position -/

/-- Entries of a table from a key, n of them. -/
def spanOf {V : Type} (first n : Nat) (t : Sparse V) : List V :=
  (t.filter fun e => decide (first ≤ e.1) && decide (e.1 < first + n)).map Prod.snd

/-- Replace the entries of a span. -/
def putSpan {V : Type} (first : Nat) (vs : List V) (t : Sparse V) : Sparse V :=
  (t.filter fun e => decide (e.1 < first)) ++ ((List.range vs.length).map (first + ·)).zip vs ++
    t.filter fun e => decide (first + vs.length ≤ e.1)

/-- A whole span is present. -/
def spanFull {V : Type} (p : Nat × Nat) (t : Sparse V) : Bool :=
  decide ((t.filter fun e => decide (p.1 ≤ e.1) && decide (e.1 < p.1 + p.2)).length = p.2)

/-- Little-endian INT32 values. -/
def intsOf (b : Bytes) : List Int := (List.range (b.length / 4)).map fun i => signed 32 (getLe b (4 * i) 4)

/-- Bytes of INT32 values. -/
def bytesOfInts (xs : List Int) : Bytes := xs.flatMap fun x => natLe 4 (x % 2 ^ 32).toNat

/-! ### Bobbin data (R47, R48, R206, R210) -/

/-- Bytes of one B8 group of up to 512 elements from an element index (R48). -/
def Coll.b8Group (k : Coll) (r : Report) (first : Nat) (xs : List Int) : Bytes :=
  let nb := cdiv xs.length 32
  let man := xs.map fun x => BitVec.ofNat 8 (x % 256).toNat
  let sc := (List.range nb).flatMap fun j => natLe 2 (k.scale r (first + 32 * j) % 65536).toNat
  let body := man ++ List.replicate (32 * nb - xs.length) 0 ++ sc
  body ++ List.replicate (roundUp body.length 32 - body.length) 0

/-- Integers as they travel. -/
def Coll.wire (k : Coll) (r : Report) (first : Nat) (xs : List Int) : Bytes :=
  if k.b8 then
    let gs := chunksOf 512 xs.length xs
    (gs.zip (List.range gs.length)).flatMap fun p => k.b8Group r (first + 512 * p.2) p.1
  else bytesOfInts xs

/-- Blocks of a B8 group of this many bytes. -/
def b8Blocks (len : Nat) : Nat := ((List.range 17).find? fun n => decide (0 < n) && decide (roundUp (34 * n) 32 = len)).getD 0

/-- Integers of one B8 group; none where an s_b differs from the agreed value (R210). -/
def Coll.b8Read (k : Coll) (r : Report) (first : Nat) (b : Bytes) : Option (List Int) :=
  let nb := b8Blocks b.length
  let n := min (32 * nb) (k.count - first)
  let ok := (List.range nb).all fun j => decide (signed 16 (getLe b (32 * nb + 2 * j) 2) = k.scale r (first + 32 * j))
  if nb = 0 ∨ !ok then none else some ((b.take n).map fun x => signed 8 x.toNat)

/-- Integers of B8 groups in order. -/
def Coll.b8ReadAll (k : Coll) (r : Report) : Nat → Nat → Bytes → Option (List Int)
  | 0, _, b => if b = [] then some [] else none
  | f + 1, first, b =>
    if b = [] then some []
    else match k.b8Read r first (b.take 544), k.b8ReadAll r f (first + 512) (b.drop 544) with
      | some xs, some ys => some (xs ++ ys)
      | _, _ => none

/-- Little-endian 32-bit words, read unsigned (R210). -/
def wordsOf (b : Bytes) : List Int := (List.range (cdiv b.length 4)).map fun i => (getLe b (4 * i) 4 : Int)

/-- What the Tally of a bobbin runs over: index of the first element, elements; none where an s_b differs. -/
def Coll.tallied (k : Coll) (r : Report) (first : Nat) (b : Bytes) : Option (Nat × List Int) :=
  if !k.reduces then some (k.posBytes first / 4, wordsOf b)
  else if k.b8 then (k.b8ReadAll r (b.length / 32 + 1) first b).map fun xs => (first, xs)
  else some (first, intsOf b)

/-- The Tally of integers of this collective from an element index (R196, R210). -/
def Coll.tallyAt (k : Coll) (first : Nat) (xs : List Int) : Nat := tally k.describe.2 first xs

/-! ### The package stage and staging (R201, R202, R210, R211) -/

/-- The outward package stage for n elements from `first`, formed from the sources each time it is needed: the members' integers
summed by die position, and the sum of their Tallies, against which the sum is checked. Clamps are counted as elements are
converted. -/
def Mach.packagePart (m : Mach) (k : Coll) (r : Report) (first n : Nat) : Mach × Except ShFail (List Int × Nat) :=
  match m.readFor k.key.ctx (k.members.flatMap fun y => m.srcRanges k y.die first n) with
  | (m, some e) => (m, .error e)
  | (m, none) =>
    let qs := k.members.map fun y => k.quant r first (m.inputs k y.die first n)
    let m := m.cnt (if k.b8 then 0xA001 else 0xA000) 128 (some k.key.ctx) (qs.flatMap fun q => q.filter Prod.snd).length
    let parts := qs.map fun q => q.map Prod.fst
    let sum := (List.range n).map fun i => (parts.map fun p => p.getD i 0).sum
    let t := (parts.map fun p => k.tallyAt first p).sum % tallyP
    if k.tallyAt first sum = t then (m, .ok (sum, t))
    else (m, .error ⟨Status.tallyMismatch.code, (m.ownRank k.key.ctx).getD 0, true⟩)

/-- The running Tally of n elements of staging: those of the kept bobbins that lie in the range, and for one that lies in it only in
part, which no Tally splits, that of its integers, which passed the check as it was kept (log 73). -/
def Coll.stagedTally (k : Coll) (x : ShMember) (stage first n : Nat) : Nat :=
  ((x.kept.filter fun e => decide (e.stage = stage) && !e.inward).map fun e =>
    let a := max first e.first
    let b := min (first + n) (e.first + e.count)
    if b ≤ a then 0 else if b - a = e.count then e.tally else k.tallyAt a (spanOf a (b - a) x.acc)).sum % tallyP

/-- What a member adds in the ring stage that is number `i` of the nonempty ones: the package part, or the staging of the stage
before. -/
def Mach.contribution (m : Mach) (k : Coll) (x : ShMember) (r : Report) (i first n : Nat) : Mach × Except ShFail (List Int × Nat) :=
  if i = 0 then m.packagePart k r first n
  else (m, .ok (spanOf first n x.acc, k.stagedTally x (k.stages.getD (i - 1) 0) first n))

/-! ### Stages (R201 to R204) -/

/-- Bobbins of a half of a stage piece. -/
def Coll.halfTasks (k : Coll) (st h owner : Nat) (back : Bool) : List ShTask :=
  let dest := ringStep (k.ring st h) h back
  (cutSpan k.cap (halfOf back (k.stagePiece st owner))).map fun p => ⟨st, false, back, 0, dest, p.1, p.2, none⟩

/-- What a member starts in an outward ring stage: the forward half of the piece owned one place behind it, and the backward
half of the piece owned one place ahead (R202). -/
def Coll.outTasks (k : Coll) (st h : Nat) : List ShTask :=
  let l := k.ring st h
  k.halfTasks st h (ringStep l h true) false ++ k.halfTasks st h (ringStep l h false) true

/-- How many members an inward bobbin reaches in a direction, on a wrapped axis (R203). -/
def inReach (ext : Nat) (back : Bool) : Nat := if back then (ext - 1) / 2 else ext / 2

/-- Where member h sends an inward bobbin that has made `hop` hops, if it goes further (R203). -/
def Coll.inNext (k : Coll) (st h : Nat) (back : Bool) (hop : Nat) : Option Nat :=
  if k.wrapAt st then
    if hop < inReach (k.ext st) back then some (ringStep (k.ring st h) h back) else none
  else if back then (if k.digit st h = 0 then none else some (h - k.rest st))
  else if k.digit st h + 1 < k.ext st then some (h + k.rest st) else none

/-- What a member multicasts in an inward ring stage: everything it holds. -/
def Coll.inTasks (k : Coll) (st h : Nat) : List ShTask :=
  [false, true].flatMap fun back => match k.inNext st h back 0 with
    | none => []
    | some dest => (k.spans st h).flatMap fun p => (cutSpan k.cap p).map fun e => ⟨st, true, back, 0, dest, e.1, e.2, none⟩

/-- Bobbins sent straight from one member to another: a piece to the root, or from the root (R204). -/
def Coll.direct (k : Coll) (dest piece : Nat) : List ShTask :=
  (cutSpan k.cap (k.piece piece)).map fun p => ⟨0, true, false, 0, dest, p.1, p.2, none⟩

/-- The outward half of its own piece that a member must receive has arrived. -/
def Coll.halfDone (k : Coll) (x : ShMember) (st : Nat) (back : Bool) : Bool :=
  (cutSpan k.cap (halfOf back (k.stagePiece st x.h))).all fun p => x.seen.contains (st, false, back, p.1 / 32)

/-- Every byte of a span of positions is held. -/
def Coll.has (k : Coll) (x : ShMember) (p : Nat × Nat) : Bool := spanFull (k.posBytes p.1, k.posBytes p.2) x.raw

/-- A member holds everything of a level. -/
def Coll.hasLevel (k : Coll) (x : ShMember) (lvl : Nat) : Bool := (k.spans lvl x.h).all fun p => k.has x p

/-- A member's own piece after its last outward stage, as INT32 values at their positions. -/
def Coll.ownTotals (k : Coll) (x : ShMember) : Sparse Byte :=
  let p := k.piece x.h
  putSpan (p.1 * 4) (bytesOfInts (spanOf p.1 p.2 x.acc)) []

/-- A member's totals stand ready for the inward phase, with their running Tally. -/
def Coll.withTotals (k : Coll) (x : ShMember) : ShMember :=
  let p := k.piece x.h
  { x with raw := k.ownTotals x,
           kept := x.kept ++ [⟨0, true, p.1, p.2, k.stagedTally x (k.stages.getLastD 0) p.1 p.2⟩] }

/-- The outward phase of a member has ended: what comes next (R201, R204). -/
def Coll.outEnd (k : Coll) (x : ShMember) : ShMember :=
  if k.s.op = 0 ∨ (k.s.op = 4 ∧ x.h = k.rootH) then k.withTotals x
  else if k.s.op = 4 then { k.withTotals x with tasks := x.tasks ++ k.direct k.rootH x.h }
  else x

/-- A member has done all outward stages. -/
def Coll.outDone (k : Coll) (x : ShMember) : Bool := !k.reduces || decide (k.stages.length < x.outStage)

/-- Move a member on through its outward stages as they end. `outStage` counts the stages begun, and one more once all have
ended. -/
def Coll.outward (k : Coll) : Nat → ShMember → ShMember
  | 0, x => x
  | f + 1, x =>
    let n := k.stages.length
    if k.outDone x then x
    else
      let ended := decide (x.outStage = 0) || (let st := k.stages.getD (x.outStage - 1) 0
        k.halfDone x st false && k.halfDone x st true)
      if !ended then x
      else if x.outStage = n then k.outEnd { x with outStage := n + 1 }
      else
        let st := k.stages.getD x.outStage 0
        k.outward f { x with outStage := x.outStage + 1, tasks := x.tasks ++ k.outTasks st x.h }

/-- The inward ring stages run for this operation. -/
def Coll.multicasts (k : Coll) : Bool := decide (k.s.op = 0) || decide (k.s.op = 2) || decide (k.s.op = 3)

/-- Begin a member's inward stages, each once it holds all that it is to multicast. `inStage` counts the stages begun. -/
def Coll.inward (k : Coll) : Nat → ShMember → ShMember
  | 0, x => x
  | f + 1, x =>
    let sts := k.stages.reverse
    if !k.multicasts ∨ !k.outDone x ∨ sts.length ≤ x.inStage then x
    else
      let st := sts.getD x.inStage 0
      if !k.hasLevel x st then x
      else k.inward f { x with inStage := x.inStage + 1, tasks := x.tasks ++ k.inTasks st x.h }

/-- Move a member on. -/
def Coll.advance (k : Coll) (x : ShMember) : ShMember := k.inward 4 (k.outward 5 x)

/-- The positions that a member holds inward: what the package stage writes to every member die here (R203). -/
def ShMember.inwardSpans (x : ShMember) : List (Nat × Nat) := (x.kept.filter ShKept.inward).map fun e => (e.first, e.count)

/-- Has a member received and sent all its data? -/
def Coll.dataDone (k : Coll) (x : ShMember) : Bool :=
  k.outDone x && decide (x.tasks = []) &&
    (k.sent.all fun e => decide (e.sender ≠ x.h) || decide ((shHdr e.hdr).kind ≠ shData)) &&
    (if k.multicasts then k.hasLevel x 0
     else decide (k.s.op ≠ 4) || decide (x.h ≠ k.rootH) || k.has x (0, k.count))

/-- A member needs nothing more from any other module. -/
def Coll.memberDone (k : Coll) (x : ShMember) : Bool :=
  match x.result with
  | none => false
  | some r =>
    if k.s.op = 5 then true
    else if k.s.op = 6 then x.total.isSome
    else if k.reduces && r.nonfinite then true
    else k.dataDone x

/-! ### The bytes a member writes (R47, R48, R198, R212, R216) -/

/-- Bytes of positions held by any member of this module. -/
def Coll.heldBytes (k : Coll) (first n : Nat) : Bytes :=
  let all := k.members.flatMap fun x => x.raw
  (List.range n).map fun i => Sparse.get 0 (first + i) all

/-- Destination elements of totals from an element index, by RNE. -/
def Coll.convert (k : Coll) (r : Report) (first : Nat) (xs : List Int) : List Nat :=
  (xs.zip (List.range xs.length)).map fun p => (k.s.dstFormat.encode none (wireValue p.1 (k.scale r (first + p.2)))).bits

/-- Elements as bytes. -/
def elemBytes (f : Fmt) (es : List Nat) : Bytes := es.flatMap fun e => natLe (f.bits / 8) e

/-- Destination elements that a reducing operation writes at its commit: NaNs under the agreed flag; the piece of REDUCE_SCATTER; the
whole of REDUCE at its root. ALL_REDUCE has written its own by then. -/
def Coll.results (k : Coll) (r : Report) (x : ShMember) : List Nat :=
  let n := k.dstBytes x.h / (k.s.dstFormat.bits / 8)
  if r.nonfinite then List.replicate n k.s.dstFormat.canonNan
  else match k.s.op with
    | 1 => k.convert r (k.piece x.h).1 (spanOf (k.piece x.h).1 (k.piece x.h).2 x.acc)
    | 4 => if x.h = k.rootH then k.convert r 0 (intsOf (k.heldBytes 0 (4 * k.count))) else []
    | _ => []

/-- Destination bytes that a member writes at its commit. -/
def Coll.dstData (k : Coll) (r : Report) (x : ShMember) : Bytes :=
  match k.s.op with
  | 0 | 1 | 4 => elemBytes k.s.dstFormat (k.results r x)
  | 6 => natLe 8 (x.total.getD 0)
  | _ => []

/-- An MX block of a destination, from byte `base` of it: its elements; its scale, with the zero bytes that end its block group where it
is the last of the group (R29). -/
def mxLanding (f : Fmt) (size0 base i : Nat) (b : Bytes) : List (Nat × Bytes) :=
  let j := i % size0
  let p := elemPlace f size0 j
  let nb := min 32 (size0 / 32 - 32 * (j / 1024))
  let pad := if j % 1024 / 32 + 1 = nb then groupBytes f.bits nb - (32 * nb * f.bits / 8 + nb) else 0
  let row := base + i / size0 * rowBytesOf f size0
  [(row + p.1, b.take (4 * f.bits)), (row + p.2.2, b.drop (4 * f.bits) ++ List.replicate pad 0)]

/-- Where the inward package stage writes data from position `first` in a destination, and what (R47, R48, R185, R203, R212). -/
def Coll.landing (k : Coll) (r : Report) (first : Nat) (b : Bytes) : List (Nat × Bytes) :=
  let f := k.s.src.format
  let h := if k.s.op = 2 then first / max 1 k.q else 0
  let i := first - h * k.q
  let base := h * k.srcBytes
  if k.reduces then [(first * (k.s.dstFormat.bits / 8), elemBytes k.s.dstFormat (k.convert r first (intsOf b)))]
  else if f.isMx then (chunksOf f.blockBytes b.length b).zip (List.range b.length) |>.flatMap fun p =>
    mxLanding f k.s.src.size0 base (i + 32 * p.2) p.1
  else [(base + k.posBytes i, b)]

/-- The NORM value (R198, R212). -/
def Coll.normOf (k : Coll) (r : Report) (x : ShMember) : Nat :=
  let p := k.piece x.h
  if r.nonfinite then Fmt.canonNan .fp64
  else if p.2 = 0 then 0
  else
    let vs := (k.convert r p.1 (spanOf p.1 p.2 x.acc)).map k.s.dstFormat.decode
    (Fmt.encode .fp64 none (Fmt.treeAdd .fp64 (vs.map fun v => Fmt.vmul .fp64 v v))).bits

/-- The new residuals of a member (R49, R216): x′ − q × 2^s_b, exact in FP32. -/
def Mach.residuals (m : Mach) (k : Coll) (r : Report) (x : ShMember) : Bytes :=
  let xs := m.inputs k x.die 0 k.s.src.count
  ((xs.zip (k.quant r 0 xs)).zip (List.range xs.length)).flatMap fun p =>
    natLe 4 (Fmt.encode .fp32 none (p.1.1.add (wireValue p.1.2.1 (k.scale r p.2)).neg)).bits

/-- A member writes new residuals at its commit. -/
def Coll.newResiduals (k : Coll) (r : Report) : Bool := k.b8 && !r.nonfinite

/-- The writes of a member at its commit, in order: destination, norm, residuals (R212). -/
def Mach.commitWrites (m : Mach) (k : Coll) (r : Report) (x : ShMember) : List (Nat × Bytes) :=
  let at_ := fun (a : Nat) (b : Bytes) => if b = [] then [] else [(dieAddr x.die a, b)]
  at_ k.s.dstAddr (k.dstData r x) ++
    (if k.s.norm then at_ k.s.normAddr (natLe 8 (k.normOf r x)) else []) ++
    (if k.newResiduals r then at_ k.s.residual (m.residuals k r x) else [])

end Sys2Proof.Machine
end

