-- ==== Sys2Proof/Machine/Shuttle.lean ====
section
/-! DEFINITION. The SHUTTLE engine's rows (R185, R190 to R218): start, admission, handshake, data, answers, timeouts, commit. -/

namespace Sys2Proof.Machine

open Sys2Proof

/-! ### The Bellwether (R218) -/

/-- What the Bellwether records where nobody was named. -/
def nobody : Nat := 0xFFFFFFFF

/-- What the Bellwether records for member h: rank + die · 2^14, and the group. -/
def Coll.nameOf (k : Coll) (named : Nat) : Nat × Nat :=
  if named = 0 ∨ k.size < named then (nobody, k.key.group)
  else (k.rankOf (named - 1) + k.dieOf (named - 1) * 2 ^ 14, k.key.group)

/-- Count the member a RESULT names over the last 1,024 collectives of the context; past the threshold it becomes SUSPECT, with
one EMCY per marking. -/
def Mach.bellwether (m : Mach) (k : Coll) (named : Nat) : Mach :=
  let c := k.key.ctx
  let e := k.nameOf named
  let m := { m with shut := { m.shut with named := Vec.upd m.shut.named c fun l => (e :: l).take 1024 } }
  let n : Nat := ((m.shut.named[c]).filter fun (x : Nat × Nat) => decide (x = e)).length
  let mark : Nat × Nat × Nat := (c.val, e.2, e.1)
  if decide (e.1 = nobody) || decide (n ≤ m.num 0x2C00 8) || m.shut.suspects.contains mark then m
  else ({ m with shut := { m.shut with suspects := mark :: m.shut.suspects } }).emcy 0xFF07 (e.2 * 65536 + e.1 % 2 ^ 14) 2 (some c) 128

/-- Which of the inputs of a node came last: (named, arrival) in combining order; of equal times the later input (R218). -/
def lastInput : List (Nat × Nat) → Nat × Nat
  | [] => (0, 0)
  | x :: rest => rest.foldl (fun a b => if a.2 ≤ b.2 then b else a) x

/-- The member that the root names: its last input, if it came at least the margin after the one before it. -/
def Mach.rootNames (m : Mach) (ins : List (Nat × Nat)) : Nat :=
  let l := lastInput ins
  let others := ins.erase l
  if others ≠ [] ∧ (lastInput others).2 + m.num 0x2C00 9 * 1000 ≤ l.2 then l.1 else 0

/-! ### Sending data (R202 to R209) -/

/-- The running Tally of data at an element index. -/
def Coll.tallyOf (k : Coll) (r : Report) (first : Nat) (d : Bytes) : Nat :=
  match k.tallied r first d with
  | some p => k.tallyAt p.1 p.2
  | none => 0

/-- The running Tally of totals that a member holds inward (R211). -/
def Coll.totalsTally (k : Coll) (x : ShMember) (first n : Nat) : Nat :=
  ((x.kept.filter ShKept.inward).map fun e =>
    let a := max first e.first
    let b := min (first + n) (e.first + e.count)
    if b ≤ a then 0 else if b - a = e.count then e.tally
    else k.tallyAt a (intsOf (spanOf (4 * a) (4 * (b - a)) x.raw))).sum % tallyP

/-- What a bobbin to be sent carries, and its running Tally. -/
def Mach.taskBobbin (m : Mach) (k : Coll) (x : ShMember) (r : Report) (t : ShTask) : Mach × Except ShFail (Bytes × Nat) :=
  match t.held with
  | some b => (m, .ok (b.data, b.tally))
  | none =>
    if !t.inward then
      match m.contribution k x r (posIn t.stage k.stages) t.first t.count with
      | (m, .ok p) => (m, .ok (k.wire r t.first p.1, p.2))
      | (m, .error e) => (m, .error e)
    else
      let raw := spanOf (k.posBytes t.first) (k.posBytes t.count) x.raw
      if k.reduces then (m, .ok (k.wire r t.first (intsOf raw), k.totalsTally x t.first t.count))
      else if t.stage ≠ 0 then (m, .ok (raw, k.tallyOf r t.first raw))
      else match m.readFor k.key.ctx (m.elemRanges (k.s.src.atDie x.die) t.first t.count) with
        | (m, some e) => (m, .error e)
        | (m, none) => let d := m.srcData k x.die t.first t.count; (m, .ok (d, k.tallyOf r t.first d))

/-- Unacknowledged bobbins of a member in a stage, phase and direction. -/
def Coll.unacked (k : Coll) (h : Nat) (t : ShTask) : Nat :=
  (k.sent.filter fun e => let d := shHdr e.hdr
    decide (e.sender = h) && decide (d.kind = shData) && decide (d.stage = t.stage) && decide (d.inward = t.inward) &&
      decide (d.backward = t.backward)).length

/-- A buffer of the reservation is free. -/
def Coll.room (k : Coll) : Bool := decide (k.buffers.length < k.reserved)

/-- Bobbins in flight that members here began: they leave the eight receive buffers of each member alone (R193, R207). -/
def Coll.begun (k : Coll) : Nat :=
  (k.sent.filter fun e => e.buf.isSome && decide ((shHdr e.hdr).hop = 0)).length

/-- A bobbin may go: fewer than four unacknowledged in its stage, phase and direction, and a buffer for it (R207). -/
def Coll.mayGo (k : Coll) (x : ShMember) (t : ShTask) : Bool :=
  decide (k.unacked x.h t < 4) && (match t.held with
    | some b => b.buf.isSome || k.room
    | none => k.room && decide (k.begun + 8 * k.members.length < k.reserved))

/-- The first bobbin of a member that may go. -/
def Coll.nextTask (k : Coll) (x : ShMember) : Option (ShTask × List ShTask) := takeFirst (k.mayGo x) x.tasks

/-- The buffer of a bobbin to be sent: the one it lies in, or a fresh one. -/
def Mach.taskBuf (m : Mach) (k : Coll) (t : ShTask) : Mach × Option Nat :=
  match t.held.bind ShHeld.buf with
  | some b => (m, some b)
  | none => m.bpmAlloc k.group.pool rqShuttle 1

/-- Send one bobbin of a member. -/
def Mach.sendTask (m : Mach) (k : Coll) (x : ShMember) (r : Report) (t : ShTask) (left : List ShTask) : Mach :=
  match m.taskBobbin k x r t with
  | (m, .error e) => m.collFails k.key e
  | (m, .ok (d, ty)) =>
    let (m, buf) := m.taskBuf k t
    let hdr := { k.hdr x.h with
      kind := shData, tally := ty, chunk := t.first / 32, hop := t.hop, stage := t.stage, inward := t.inward,
      backward := t.backward }
    (m.modMember k.key x.h fun x => { x with tasks := left }).shPost k.key x.h t.dest hdr d buf

/-- Send what the collective may send. -/
def Mach.pumpGo (m : Mach) (key : CollKey) : Nat → Mach
  | 0 => m
  | f + 1 =>
    match m.coll key with
    | none => m
    | some k =>
      match k.members.findSome? fun x => match x.result, k.nextTask x with
          | some r, some t => some (x, r, t)
          | _, _ => none with
        | none => m
        | some (x, r, t) => (m.sendTask k x r t.1 t.2).pumpGo key f

/-- The inward package stage writes one span of positions, held by some member here, to the destination of member y (R203, R212). -/
def Mach.deliverSpan (m : Mach) (key : CollKey) (y : ShMember) (r : Report) (p : Nat × Nat) : Mach :=
  match m.coll key with
  | none => m
  | some k =>
    let b := k.heldBytes (k.posBytes p.1) (k.posBytes p.2)
    let write := fun (a : Mach × Option Nat) (w : Nat × Bytes) =>
      if a.2.isSome then a else a.1.spadStore (dieAddr y.die k.s.dstAddr + w.1) w.2 (some key.ctx)
    match (k.landing r p.1 b).foldl write (m, none) with
    | (m, some i) => m.failColl key Status.uncorrectable.code i
    | (m, none) => m.modMember key y.h fun y => { y with wrote := y.wrote ++ [p] }

/-- The inward package stage: what members here hold goes to every member die that has the handshake's result and lacks it (R199,
R203). -/
def Mach.deliverAll (m : Mach) (key : CollKey) : Mach :=
  match m.coll key with
  | none => m
  | some k =>
    if !k.multicasts then m
    else k.members.foldl (fun m y => match y.result with
      | none => m
      | some r => ((k.members.flatMap ShMember.inwardSpans).filter fun p => decide (p.2 ≠ 0) && !y.wrote.contains p).foldl
          (fun m p => m.deliverSpan key y r p) m) m

/-- Move every member on, write what has arrived and send what may be sent. -/
def Mach.pump (m : Mach) (key : CollKey) : Mach :=
  let m := m.modColl key fun k => { k with members := k.members.map fun x =>
    match x.result with
    | some r => if k.reduces && r.nonfinite then x else if k.s.op < 5 then k.advance x else x
    | none => x }
  let m := m.deliverAll key
  match m.coll key with
  | none => m
  | some k => m.pumpGo key (k.members.map fun x => x.tasks.length).sum

/-! ### Scalars (R217) -/

/-- A member sends its value up, added to those of its children, or, at the root, the total down. -/
def Mach.scalarUp (m : Mach) (key : CollKey) (h : Nat) : Mach :=
  match m.coll key with
  | none => m
  | some k => match k.member h with
    | none => m
    | some x =>
      let ch := k.children h
      let got := ch.filterMap fun g => (x.scalars.find? fun p => decide (p.1 = g)).map Prod.snd
      if k.s.op ≠ 6 ∨ x.result.isNone ∨ x.scalarSent ∨ got.length ≠ ch.length then m
      else
        let a := dieAddr x.die (k.s.src.addr)
        match m.readFor key.ctx [(a, 8)] with
        | (m, some e) => m.collFails key e
        | (m, none) =>
          let own := (Fmt.encode .fp64 none (Fmt.decode .fp64 (leNat (m.spadRead a 8)))).bits
          let v := got.foldl (fun v g => (Fmt.encode .fp64 none ((Fmt.decode .fp64 v).add (Fmt.decode .fp64 g))).bits) own
          let hdr := { k.hdr h with kind := shScalar, value := v }
          if h = 0 then
            ch.foldl (fun m g => m.shPost key 0 g { hdr with inward := true } [])
              (m.modMember key 0 fun x => { x with total := some v, scalarSent := true })
          else (m.modMember key h fun x => { x with scalarSent := true }).shPost key h (k.parent h) hdr []

/-! ### The result of the handshake (R195, R198, R199) -/

/-- A member's data for the inward phase, read from its own source: n elements from `first`, for positions from `pos`. -/
def Mach.ownData (m : Mach) (k : Coll) (x : ShMember) (r : Report) (pos first n : Nat) : Mach :=
  match m.readFor k.key.ctx (m.elemRanges (k.s.src.atDie x.die) first n) with
  | (m, some e) => m.collFails k.key e
  | (m, none) =>
    let d := m.srcData k x.die first n
    m.modMember k.key x.h fun x => { x with
      raw := putSpan (k.posBytes pos) d x.raw, kept := x.kept ++ [⟨0, true, pos, n, k.tallyOf r pos d⟩] }

/-- A member begins to compute with the agreed scale. Where no ring stage follows, its piece of the package sums is all there is to
reduce; otherwise contributions are formed as the first stage needs them (R201). -/
def Mach.beginData (m : Mach) (k : Coll) (x : ShMember) (r : Report) : Mach :=
  let p := k.piece x.h
  if k.reduces then
    if r.nonfinite ∨ k.stages ≠ [] then m
    else match m.packagePart k r p.1 p.2 with
      | (m, .error e) => m.collFails k.key e
      | (m, .ok q) => m.modMember k.key x.h fun x => { x with
          acc := putSpan p.1 q.1 x.acc, kept := x.kept ++ [⟨0, false, p.1, p.2, q.2⟩] }
  else if k.s.op = 2 then m.ownData k x r p.1 0 p.2
  else if k.s.op = 3 ∧ x.h = k.rootH then
    (m.ownData k x r p.1 p.1 p.2).modMember k.key x.h fun x => { x with
      tasks := (List.range k.size).flatMap fun h => if h = x.h then [] else k.direct h h }
  else m

/-- A member receives the handshake result: it passes it down and begins (R195). -/
def Mach.takeResult (m : Mach) (key : CollKey) (h : Nat) (r : Report) : Mach :=
  match m.coll key with
  | none => m
  | some k => match k.member h with
    | none => m
    | some x =>
      let m := if k.members.all (fun y => y.result.isNone) then m.bellwether k r.named else m
      let hdr := { k.hdr h with kind := shResult, nonfin := r.nonfinite, emax := r.emax.getD 0 (-512), detail := r.named }
      let d := if k.b8 then r.emax.flatMap fun e => natLe 2 (e % 65536).toNat else []
      let m := m.modMember key h fun x => { x with result := some r }
      let m := (k.children h).foldl (fun m g => m.shPost key h g hdr d) m
      ((m.beginData k x r).scalarUp key h).pump key

/-! ### Reports (R195, R198) -/

/-- Combine two reports: max and OR. -/
def Report.join (a b : Report) : Report :=
  let n := max a.emax.length b.emax.length
  { emax := (List.range n).map fun i => max (a.emax.getD i (-512)) (b.emax.getD i (-512)),
    nonfinite := a.nonfinite || b.nonfinite, named := a.named }

/-- A member that is ready and has its children's reports sends its own up; member 0 forms the result. -/
def Mach.reportUp (m : Mach) (key : CollKey) (h : Nat) : Mach :=
  match m.coll key with
  | none => m
  | some k => match k.member h with
    | none => m
    | some x =>
      let heads := h :: k.children h
      let got := heads.filterMap fun g => x.reports.find? fun p => decide (p.1 = g)
      if k.phase ≠ .admitted ∨ x.sentUp ∨ x.readyAt.isNone ∨ got.length ≠ heads.length then m
      else match got with
        | [] => m
        | g :: rest =>
          let r := rest.foldl (fun r p => r.join p.2.1) g.2.1
          let ins := got.map fun p => (p.2.1.named, p.2.2)
          let m := m.modMember key h fun x => { x with sentUp := true }
          if h = 0 then m.takeResult key 0 { r with named := m.rootNames ins }
          else
            let r := { r with named := (lastInput ins).1 }
            let hdr := { k.hdr h with kind := shScale, nonfin := r.nonfinite, emax := r.emax.getD 0 (-512), detail := r.named }
            m.shPost key h (k.parent h) hdr (if k.b8 then r.emax.flatMap fun e => natLe 2 (e % 65536).toNat else [])

/-- A member is ready: its own report stands beside those of its children. -/
def Mach.ready (m : Mach) (key : CollKey) (h : Nat) (r : Report) : Mach :=
  (m.modMember key h fun x => { x with reports := x.reports ++ [(h, r, m.now)], readyAt := some m.now }).reportUp key h

/-! ### Start (R185, R186, R192 to R194) -/

/-- A destination that coincides exactly with its source, where no residual is used (R186). -/
def Coll.inPlace (k : Coll) : Bool :=
  let s := k.s
  let n := match s.op with
    | 1 => k.q
    | 2 => k.size * s.src.count
    | _ => s.src.count
  decide (s.residual = 0) && decide (s.dstFmt = s.src.fmt) && decide (n = s.src.count) &&
    decide (s.dstAddr % 2 ^ 29 = s.src.addr % 2 ^ 29)

/-- No two ranges of a member meet, but a source and its own index tensor, and a destination that coincides with its source
(R186). -/
def Coll.apart (k : Coll) : List (Nat × Nat × Nat) → Bool
  | [] => true
  | a :: rest => (rest.all fun b => !meets a.2 b.2 || decide (b.1 = 1) || (k.inPlace && decide (a.1 = 0) && decide (b.1 = 2))) &&
      k.apart rest

/-- The sources that members here read. -/
def Coll.sources (k : Coll) : List Td :=
  if k.s.op = 5 then [] else k.members.filterMap fun x => if k.s.op = 3 ∧ x.h ≠ k.rootH then none else some (k.s.src.atDie x.die)

/-- Checks 3 to 7 of R194, then the index values of the source (R93). -/
def Mach.checkColl (m : Mach) (k : Coll) : Option (Status × Nat) :=
  let c := k.key.ctx
  let s := k.s
  let bad5 := (Status.badSlot, badSlotDetail 5 s.group)
  if k.members.any fun x => (k.ranges x).any fun r => !m.spadInWindow c r.2.1 r.2.2 then some (.windowViolation, 0)
  else if k.reduces ∧ k.group.wire = 0 then some bad5
  else if k.members.any fun x => !k.apart (k.ranges x) then some (.badTd, 4)
  else if s.norm ∧ s.op ≠ 0 ∧ s.op ≠ 1 then some bad5
  else if (s.residual ≠ 0) ≠ (k.b8 = true) then some bad5
  else match m.badSpads (k.sources.flatMap Td.indexRange) with
    | some w => some (.uncorrectable, spadIsland (w * 8))
    | none => (k.sources.findSome? fun t => m.badIndex t).map fun p => (.indexOutOfRange, p)

/-- The collective of a slot on this module: the members on its dies, in order of hierarchical index. -/
def Mach.makeColl (m : Mach) (c : CtxId) (q : QSlot) (drover : Bool) (g : Group) (own : Nat) : Coll :=
  let s := parseShut q.bytes
  let hs := hIndices g.ring g.coords
  let byH := (List.range g.ring.length).map fun h => g.ring.getD (posIn h hs) (0, 0)
  let mine := ((List.range g.ring.length).zip byH).filter fun e => decide (e.2.2 = own)
  { key := ⟨c, s.group, BitVec.ofNat 32 s.seq⟩, slot := q, drover := drover, phase := .place, group := g,
    order := byH.map fun e => (e.2, e.1), extents := extentsOf g.ring g.coords,
    wrapped := (m.net.wrap.getLsbD 0, m.net.wrap.getLsbD 1, m.net.wrap.getLsbD 2),
    members := mine.map fun e => {
      h := e.1, die := e.2.1, rank := own, reports := [], readyAt := none, sentUp := false, result := none, scalars := [],
      scalarSent := false, total := none, outStage := 0, inStage := 0, acc := [], raw := [], kept := [], wrote := [], seen := [], tasks := [],
      committed := false },
    sent := [], reserved := 0 }

/-- Check 1 of R194: the group, and this module's rank in it; for BROADCAST and REDUCE the root. -/
def Mach.collGroup (m : Mach) (c : CtxId) (s : ShutSlot) : Option (Group × Nat) :=
  match m.group c s.group, m.ownRank c with
  | some g, some own =>
    let rooted := decide (s.op = 3) || decide (s.op = 4)
    if g.ring.any (fun e => decide (e.2 = own)) ∧ (!rooted ∨ g.ring.any fun e => decide (e.2 = s.root)) then some (g, own)
    else none
  | _, _ => none

/-- A SHUTTLE slot, or the Drover's barrier, starts: the checks of R194 in order, then the line for a place. -/
def Mach.startColl (m : Mach) (c : CtxId) (q : QSlot) (drover : Bool) (fail : Mach → Status → Nat → Mach) : Mach :=
  let s := parseShut q.bytes
  match m.collGroup c s with
  | none => fail m .badSlot (badSlotDetail 5 s.group)
  | some (g, own) =>
    if s.seq ≠ g.expected.toNat then fail m .badSlot (badSlotDetail 4 g.expected.toNat)
    else
      let m := m.modGroup c s.group fun g => { g with expected := g.expected + 1 }
      let k := m.makeColl c q drover g own
      match m.checkColl k with
      | some (st, d) => fail (if st = .uncorrectable then m.readIndices c k.sources else m) st d
      | none =>
        let m := m.readIndices c k.sources
        if m.unplanned c then fail m .linkLost own
        else { m with shut := { m.shut with colls := m.shut.colls ++ [k] } }.tryPlaces

/-- Does a fabric slot wait for the fold of its context (R269)? -/
def Mach.foldWaits (m : Mach) (c : CtxId) : Bool := !m.unplanned c && !m.foldFlows c

/-- The islands of a SHUTTLE slot that starts: the Shuttle, and the way to what its members here read and write. -/
def Mach.collPath (m : Mach) (c : CtxId) (q : QSlot) : List IslandId :=
  match m.collGroup c (parseShut q.bytes) with
  | some (g, own) => (m.makeColl c q false g own).path
  | none => [128]

/-- A SHUTTLE slot of one op starts. -/
def shuttleRow (op : Nat) (c : CtxId) (s : State) : Host.Outcome State Fault Refusal :=
  runs s fun m =>
    match m.startable c .shuttle with
    | none => m
    | some q =>
      if (parseShut q.bytes).op ≠ op ∨ !m.works ∨ m.foldWaits c then m
      else m.over (m.collPath c q) fun m =>
        (m.takeHead c .shuttle).startColl c q false fun m st d =>
          m.failSlot c q { status := st, detail := d, island := if st = .uncorrectable then d else 0xFF }

/-- ALL_REDUCE (R185, R194). -/
def execAllReduce (c : CtxId) (s : State) : Host.Outcome State Fault Refusal := shuttleRow 0 c s

/-- REDUCE_SCATTER (R185, R194). -/
def execReduceScatter (c : CtxId) (s : State) : Host.Outcome State Fault Refusal := shuttleRow 1 c s

/-- ALL_GATHER (R185, R194, R204). -/
def execAllGather (c : CtxId) (s : State) : Host.Outcome State Fault Refusal := shuttleRow 2 c s

/-- BROADCAST (R185, R194, R204). -/
def execBroadcast (c : CtxId) (s : State) : Host.Outcome State Fault Refusal := shuttleRow 3 c s

/-- REDUCE (R185, R194, R204). -/
def execReduce (c : CtxId) (s : State) : Host.Outcome State Fault Refusal := shuttleRow 4 c s

/-- BARRIER (R217). -/
def execBarrier (c : CtxId) (s : State) : Host.Outcome State Fault Refusal := shuttleRow 5 c s

/-- SCALAR_ALL_REDUCE (R217). -/
def execScalarAllReduce (c : CtxId) (s : State) : Host.Outcome State Fault Refusal := shuttleRow 6 c s

/-- COLLECTIVE_ADMIT (R193, R200): the reservation is held; early messages are taken up, and members that have nothing to scan
are ready. -/
def execCollectiveAdmit (key : CollKey) (s : State) : Host.Outcome State Fault Refusal :=
  runs s fun m =>
    match m.coll key with
    | none => m
    | some k =>
      if k.phase ≠ .reservation ∨ k.reserved = 0 then m
      else m.over [128, 126] fun m =>
        let mine := fun (g : ShMsg) => decide (m.memberCtx g.fold = some key.ctx) && decide (keyOf key.ctx (shHdr g.hdr) = key)
        let m := { m with shut := { m.shut with
          rx := (m.shut.early.filter mine).map (fun (g : ShMsg) => { g with ctx := key.ctx }) ++ m.shut.rx,
          early := m.shut.early.filter fun g => !mine g } }
        let m := m.modColl key fun k => { k with phase := .admitted }
        let m := if k.reduces then m else k.members.foldl (fun m x => m.ready key x.h (m.report k x)) m
        k.members.foldl (fun m x => m.reportUp key x.h) m

/-- SHUTTLE_ADMIT_TIMEOUT (R193): a slot in line for a place fails with TIMEOUT. -/
def execShuttleAdmitTimeout (key : CollKey) (s : State) : Host.Outcome State Fault Refusal :=
  runs s fun m =>
    match m.coll key with
    | none => m
    | some k =>
      if k.phase ≠ .place then m
      else m.over [128, 126] fun m => (m.cnt 0xA003 128 (some key.ctx)).groupAbort key Status.timeout.code (objDetail 0x2C00 6)

/-- EXPONENT_SCAN_COMPLETE (R195): the next member of this module has scanned its input. -/
def execExponentScanComplete (key : CollKey) (s : State) : Host.Outcome State Fault Refusal :=
  runs s fun m =>
    match m.coll key with
    | none => m
    | some k =>
      if k.phase = .place ∨ !k.reduces then m
      else match k.members.find? fun x => x.readyAt.isNone with
        | none => m
        | some x => m.over k.path fun m =>
          match m.readFor key.ctx (m.srcRanges k x.die 0 k.s.src.count) with
          | (m, some e) => m.collFails key e
          | (m, none) => m.ready key x.h (m.report k x)

/-! ### Messages (R190, R197, R200, R208) -/

/-- Where a message stands: its group is not held; it is of another epoch; it is late; it is for a collective not admitted here; or for
an admitted one. -/
inductive MsgPlace where
  | noGroup | stale | late | early | here (k : Coll)
  deriving DecidableEq, Repr

/-- A message of a group is late: its sequence lies before the group's oldest open collective (R208). So counts, too, one for a
collective that was admitted here and is over, and a bobbin, which never arrives early (R200; log 75). -/
def Mach.isLate (m : Mach) (key : CollKey) (d : Group) (kind : Nat) : Bool :=
  let opens := m.openColls.filter fun k => decide (k.key.ctx = key.ctx ∧ k.key.group = key.group)
  (decide (opens ≠ []) && opens.all fun k => seqBefore (2 ^ 31 - 1) key.seq k.key.seq) ||
    (m.shut.ended.any fun o => decide (o.key = key) && o.admitted) ||
    (decide (kind = shData) && seqBefore (2 ^ 31 - 1) key.seq d.expected)

/-- Place of a message. -/
def Mach.msgPlace (m : Mach) (g : ShMsg) : MsgPlace :=
  let h := shHdr g.hdr
  match m.group g.ctx h.gid with
  | none => .noGroup
  | some d =>
    if d.epoch.toNat ≠ h.epoch then .stale
    else
      let key := keyOf g.ctx h
      match m.coll key with
      | some k => if k.phase = .admitted then .here k else .early
      | none => if m.isLate key d h.kind then .late else .early

/-- Take the first received message of a kind that a predicate accepts. -/
def Mach.takeMsg (m : Mach) (kind : Nat) (p : ShMsg → Bool) : Option (ShMsg × Mach) :=
  (takeFirst (fun (g : ShMsg) => decide ((shHdr g.hdr).kind = kind) && p g) m.shut.rx).map fun r =>
    (r.1, { m with shut := { m.shut with rx := r.2 } })

/-- Hold a handshake message in the early-arrival table, or refuse it (R200). -/
def Mach.holdEarly (m : Mach) (g : ShMsg) : Mach :=
  if m.shut.early.length < 256 then { m with shut := { m.shut with early := m.shut.early ++ [g] } }
  else (m.cnt 0xA004 128 (some g.ctx)).shNackTo g (m.ownIndex g)

/-- A message of a group that the context does not hold (R208). -/
def Mach.dropUnheld (m : Mach) (g : ShMsg) : Mach := m.cnt 0xA008 128 (some g.ctx)

/-- A message of an older or newer epoch: dropped, counted, answered with STALE (R190). -/
def Mach.dropStale (m : Mach) (g : ShMsg) : Mach := (m.cnt 0xA002 128 (some g.ctx)).shStaleTo g

/-- A late message (R208). -/
def Mach.dropLate (m : Mach) (g : ShMsg) : Mach := (m.cnt 0xA007 128 (some g.ctx)).shAckTo g (m.ownIndex g)

/-- The checks of R197 at the member that receives a handshake message: true where they pass; otherwise the group aborts. -/
def Mach.handshakeOk (m : Mach) (k : Coll) (at_ : Nat) (h : ShHdr) : Mach × Bool :=
  if h.proto ≠ k.group.proto.toNat then (m.groupAbort k.key Status.levelMismatch.code (k.memberDetail at_), false)
  else if h.desc ≠ k.describe.1 ∨ h.mhash ≠ k.group.hash.toNat then
    (m.groupAbort k.key Status.collectiveMismatch.code (k.memberDetail at_), false)
  else (m, true)

/-- The local member that a message from above reaches: a child of the sender that satisfies a predicate. -/
def Coll.childOf (k : Coll) (sender : Nat) (p : ShMember → Bool) : Option ShMember :=
  k.members.find? fun x => decide (x.h ≠ 0) && decide (k.parent x.h = sender) && p x

/-- Receive a handshake message: hold it, drop it, or check it at the member it is for; one that reaches no member here in this
module's own view of the tree is checked at its lowest member, where the two views differ (R197). -/
def Mach.onHandshake (m : Mach) (kind : Nat) (target : Coll → ShHdr → Option ShMember)
    (f : Coll → ShMember → ShHdr → Bytes → Mach → Mach) : Mach :=
  match m.takeMsg kind (fun _ => true) with
  | none => m
  | some (g, m') =>
    let h := shHdr g.hdr
    match m'.msgPlace g with
    | .noGroup | .early => m'.holdEarly g
    | .stale => m'.dropStale g
    | .late => m'.dropLate g
    | .here k =>
      if !m.reachable k.path then m
      else
        let x := target k h
        match (m'.wake k.path).handshakeOk k ((x.map ShMember.h).getD ((k.members.head?.map ShMember.h).getD 0)) h, x with
        | (m, true), some x => f k x h g.data m
        | (m, _), _ => m

/-- A row of the Shuttle's messages: nothing while the Shuttle cannot be reached (R17). -/
def shuttleMsgRow (s : State) (f : Mach → Mach) : Host.Outcome State Fault Refusal := runs s fun m => m.over [128, 126] f

/-- A report or result as a message carries it. -/
def Coll.readReport (k : Coll) (h : ShHdr) (d : Bytes) : Report :=
  { emax := if k.b8 then (List.range (d.length / 2)).map fun i => signed 16 (getLe d (2 * i) 2) else [h.emax],
    nonfinite := h.nonfin, named := h.detail }

/-- SHUTTLE_SCALE (R195, R197, R198). -/
def execShuttleScale (s : State) : Host.Outcome State Fault Refusal :=
  shuttleMsgRow s fun m => m.onHandshake shScale
    (fun k h => if h.sender = 0 ∨ k.size ≤ h.sender then none else k.member (k.parent h.sender))
    fun k x h d m =>
      if x.reports.any fun p => decide (p.1 = h.sender) then m
      else
        let m := m.modMember k.key x.h fun x => { x with reports := x.reports ++ [(h.sender, k.readReport h d, m.now)] }
        m.reportUp k.key x.h

/-- SHUTTLE_RESULT (R195, R199). -/
def execShuttleResult (s : State) : Host.Outcome State Fault Refusal :=
  shuttleMsgRow s fun m => m.onHandshake shResult (fun k h => k.childOf h.sender fun x => x.result.isNone)
    fun k x h d m => m.takeResult k.key x.h (k.readReport h d)

/-- SHUTTLE_SCALAR (R217): a value on its way up, or the total on its way down. -/
def execShuttleScalar (s : State) : Host.Outcome State Fault Refusal :=
  shuttleMsgRow s fun m => m.onHandshake shScalar
    (fun k h =>
      if h.inward then k.childOf h.sender fun x => x.total.isNone
      else if h.sender = 0 ∨ k.size ≤ h.sender then none else k.member (k.parent h.sender))
    fun k x h _ m =>
      if h.inward then
        (k.children x.h).foldl (fun m g => m.shPost k.key x.h g { k.hdr x.h with kind := shScalar, value := h.value, inward := true } [])
          (m.modMember k.key x.h fun x => { x with total := some h.value })
      else if x.scalars.any fun p => decide (p.1 = h.sender) then m
      else (m.modMember k.key x.h fun x => { x with scalars := x.scalars ++ [(h.sender, h.value)] }).scalarUp k.key x.h

/-! ### Bobbins (R207) -/

/-- The local member a bobbin is for. -/
def Coll.bobbinFor (k : Coll) (h : ShHdr) : Option ShMember :=
  if h.stage ≠ 0 then
    k.members.find? fun x => decide (x.h - k.digit h.stage x.h * k.rest h.stage = h.sender - k.digit h.stage h.sender * k.rest h.stage)
  else if k.s.op = 4 then k.member k.rootH
  else k.member (h.chunk * 32 / max 1 k.q)

/-- A member can take a bobbin: it has its result, and has begun the outward stage that the bobbin belongs to. -/
def Coll.canTake (k : Coll) (x : ShMember) (h : ShHdr) : Bool :=
  x.result.isSome && (h.inward || decide (posIn h.stage k.stages < x.outStage))

/-- A message that SHUTTLE_DATA can handle now: its collective is over or unknown here, or its member can take it. -/
def Mach.dataReady (m : Mach) (g : ShMsg) : Bool :=
  match m.msgPlace g with
  | .early => false
  | .here k => match k.bobbinFor (shHdr g.hdr) with
    | some x => k.canTake x (shHdr g.hdr)
    | none => true
  | _ => true

/-- Take a buffer of the reservation for a received bobbin, with a reference count. -/
def Mach.recvBuf (m : Mach) (k : Coll) (refs : Nat) : Mach × Option Nat :=
  if k.room then m.bpmAlloc k.group.pool rqShuttle refs else (m, none)

/-- A consumer of a bobbin is done with its buffer: at count 0 it is freed, back into the collective's reservation (R110, R207). -/
def Mach.dropBuf (m : Mach) (k : Coll) (buf : Option Nat) : Mach :=
  match buf with
  | none => m
  | some b =>
    let m := m.modPool k.group.pool fun q => q.drop b
    if (Sparse.find b (m.pools[k.group.pool]).alloc).isSome then m else m.bpmReserve k.group.pool rqShuttle 1

/-- A reducing hop (R202, R207): the own contribution is added and the running Tally with it, and the sum is checked. At its owner it is
kept in the staging, elsewhere it goes on in its buffer. True where the bobbin was taken. -/
def Mach.hopReduce (m : Mach) (k : Coll) (x : ShMember) (r : Report) (h : ShHdr) (xs : List Int) : Mach × Bool :=
  let first := h.chunk * 32
  match m.contribution k x r (posIn h.stage k.stages) first xs.length with
  | (m, .error e) => (m.collFails k.key e, false)
  | (m, .ok (own, t0)) =>
    let sum := (xs.zip own).map fun p => p.1 + p.2
    let t := (h.tally + t0) % tallyP
    if k.tallyAt first sum ≠ t then (m.groupAbort k.key Status.tallyMismatch.code x.rank, false)
    else
      let p := k.stagePiece h.stage x.h
      let (m, buf) := m.recvBuf k 1
      if p.1 ≤ first ∧ first < p.1 + p.2 then
        ((m.modMember k.key x.h fun x => { x with
          acc := putSpan first sum x.acc, kept := x.kept ++ [⟨h.stage, false, first, xs.length, t⟩] }).dropBuf k buf, true)
      else
        let next : ShTask := ⟨h.stage, false, h.backward, h.hop + 1, ringStep (k.ring h.stage x.h) x.h h.backward, first, xs.length,
          some ⟨k.wire r first sum, t, buf⟩⟩
        (m.modMember k.key x.h fun x => { x with tasks := x.tasks ++ [next] }, true)

/-- A bobbin that is not reduced: kept at its place, and sent on if it has further to go; its buffer counts 2 references then, and 1
at the end of a path (R203, R204). -/
def Mach.hopKeep (m : Mach) (k : Coll) (x : ShMember) (h : ShHdr) (wire d : Bytes) (n : Nat) : Mach :=
  let on := if h.stage = 0 then none else k.inNext h.stage x.h h.backward (h.hop + 1)
  let (m, buf) := m.recvBuf k (if on.isSome then 2 else 1)
  let next : List ShTask := match on with
    | some dest => [⟨h.stage, true, h.backward, h.hop + 1, dest, h.chunk * 32, n, some ⟨wire, h.tally, buf⟩⟩]
    | none => []
  (m.modMember k.key x.h fun x => { x with
    raw := putSpan (k.posBytes (h.chunk * 32)) d x.raw, tasks := x.tasks ++ next,
    kept := x.kept ++ [⟨h.stage, true, h.chunk * 32, n, h.tally⟩] }).dropBuf k buf

/-- Handle one assembled bobbin (R207). -/
def Mach.onBobbin (m : Mach) (k : Coll) (x : ShMember) (r : Report) (g : ShMsg) : Mach :=
  let h := shHdr g.hdr
  let chunk := (h.stage, h.inward, h.backward, h.chunk)
  let first := h.chunk * 32
  if (crc32 g.data).toNat ≠ h.crc ∨ g.data.length ≠ h.length then (m.cnt 0xA005 128 (some g.ctx)).shNackTo g x.h
  else if x.seen.contains chunk then (m.cnt 0xA006 128 (some g.ctx)).shAckTo g x.h
  else match k.tallied r first g.data with
    | none => m.groupAbort k.key Status.tallyMismatch.code (k.rankOf h.sender)
    | some (i, xs) =>
      if k.tallyAt i xs ≠ h.tally then m.groupAbort k.key Status.tallyMismatch.code (k.rankOf h.sender)
      else
        let taken := if !h.inward then m.hopReduce k x r h xs
          else if k.reduces then (m.hopKeep k x h g.data (bytesOfInts xs) xs.length, true)
          else (m.hopKeep k x h g.data g.data (k.positions g.data.length), true)
        if !taken.2 then taken.1
        else ((taken.1.modMember k.key x.h fun x => { x with seen := x.seen ++ [chunk] }).shAckTo g x.h).pump k.key

/-- SHUTTLE_DATA (R190, R207, R208). -/
def execShuttleData (s : State) : Host.Outcome State Fault Refusal :=
  shuttleMsgRow s fun m =>
    match m.takeMsg shData m.dataReady with
    | none => m
    | some (g, m') =>
      match m'.msgPlace g with
      | .noGroup => m'.dropUnheld g
      | .stale => m'.dropStale g
      | .late => m'.dropLate g
      | .early => m'
      | .here k =>
        if !m.reachable k.path then m
        else match k.bobbinFor (shHdr g.hdr) with
        | none => m'
        | some x => match x.result with
          | none => m'
          | some r => (m'.wake k.path).onBobbin k x r g

/-! ### Answers (R200, R207, R209) -/

/-- A kept message that an answer is about: same kind, stage, phase, direction and chunk, sent to the module that answers. -/
def Mach.answered (m : Mach) (k : Coll) (g : ShMsg) (kind : Nat) (e : ShSent) : Bool :=
  let h := shHdr g.hdr
  let d := shHdr e.hdr
  decide (d.kind = kind) && decide (d.stage = h.stage) && decide (d.inward = h.inward) && decide (d.backward = h.backward) &&
    decide (d.chunk = h.chunk) && (match m.rankOf k.key.ctx (k.rankOf e.dest) with
      | some far => decide (far.1 = g.src)
      | none => false)

/-- A bobbin has been acknowledged: its reference goes (R207). -/
def Mach.releaseBobbin (m : Mach) (k : Coll) (e : ShSent) : Mach :=
  (m.modColl k.key fun k => { k with sent := k.sent.filter fun x => !decide (x.id = e.id) }).dropBuf k e.buf

/-- An answer reaches the collective it is about; one of a group that the context does not hold is dropped and counted (R208). -/
def Mach.onAnswer (m : Mach) (kind : Nat) (f : ShMsg → Mach → Mach) : Mach :=
  match m.takeMsg kind (fun _ => true) with
  | none => m
  | some (g, m) => if (m.group g.ctx (shHdr g.hdr).gid).isNone then m.dropUnheld g else f g m

/-- SHUTTLE_ACK (R207). -/
def execShuttleAck (s : State) : Host.Outcome State Fault Refusal :=
  shuttleMsgRow s fun m => m.onAnswer shAck fun g m =>
    match m.coll (keyOf g.ctx (shHdr g.hdr)) with
    | none => m
    | some k => match k.sent.find? fun e => m.answered k g shData e with
      | none => m
      | some e => (m.releaseBobbin k e).pump k.key

/-- Send a kept message again, whole, on the current route (R209). -/
def Mach.resendNow (m : Mach) (k : Coll) (e : ShSent) : Mach :=
  (m.shSend k.key.ctx (k.rankOf e.dest) (shHdr e.hdr) e.data).getD (m.groupAbort k.key Status.linkLost.code (k.rankOf e.dest))

/-- Resend a bobbin, or fail once the limit is reached (R209). -/
def Mach.resendBobbin (m : Mach) (k : Coll) (e : ShSent) : Mach :=
  if m.num 0x2C00 5 ≤ e.resends ∧ !m.net.rebuilding then m.groupAbort k.key Status.timeout.code (objDetail 0x2C00 5)
  else
    let m := m.cnt 0xA009 128 (some k.key.ctx)
    let m := m.modColl k.key fun k => { k with sent := k.sent.map fun x =>
      if x.id = e.id ∧ !m.net.rebuilding then { x with resends := x.resends + 1 } else x }
    m.resendNow k e

/-- SHUTTLE_NACK (R200, R209): a bobbin is resent at once; a refused handshake message waits for shuttle_ack_timeout. -/
def execShuttleNack (s : State) : Host.Outcome State Fault Refusal :=
  shuttleMsgRow s fun m => m.onAnswer shNack fun g m =>
    let h := shHdr g.hdr
    match m.coll (keyOf g.ctx h) with
    | none => m
    | some k => match k.sent.find? fun e => m.answered k g h.refusedKind e with
      | none => m
      | some e =>
        if h.refusedKind = shData then m.resendBobbin k e
        else { m with shut := { m.shut with refused := m.shut.refused ++ [(k.key, e)] } }

/-- BOBBIN_RESEND (R209): a bobbin not acknowledged within shuttle_ack_timeout. -/
def execBobbinResend (id : Nat) (s : State) : Host.Outcome State Fault Refusal :=
  shuttleMsgRow s fun m =>
    match m.shut.colls.findSome? fun k => (k.sent.find? fun e => decide (e.id = id) && decide ((shHdr e.hdr).kind = shData)).map fun e => (k, e) with
    | none => m
    | some (k, e) => m.resendBobbin k e

/-- HANDSHAKE_RESEND (R200). -/
def execHandshakeResend (id : Nat) (s : State) : Host.Outcome State Fault Refusal :=
  shuttleMsgRow s fun m =>
    match m.shut.refused.find? fun (r : CollKey × ShSent) => decide (r.2.id = id) with
    | none => m
    | some (key, e) =>
      let m := { m with shut := { m.shut with refused := m.shut.refused.filter fun (r : CollKey × ShSent) => !decide (r.2.id = id) } }
      match m.coll key with
      | none => m
      | some k => m.resendNow k e

/-! ### Notices (R190, R213) and the progress timeout (R215) -/

/-- Remember that a notice of a collective that is over has passed this module. -/
def Mach.noteNotice (m : Mach) (key : CollKey) : Mach :=
  let l := m.shut.ended
  let l := if l.any fun o => decide (o.key = key) then l.map fun (o : ShEnded) => if o.key = key then { o with noticed := true } else o
    else ⟨key, false, 0, true⟩ :: l
  { m with shut := { m.shut with ended := l } }

/-- The first notice of a collective that is over: each member here that had committed keeps its result and counts it; the notice goes
on down the tree. Further ones are dropped (R213). -/
def Mach.abortOver (m : Mach) (g : ShMsg) (d : Group) : Mach :=
  let c := g.ctx
  let h := shHdr g.hdr
  let key := keyOf c h
  let o := m.shut.ended.find? fun o => decide (o.key = key)
  if (o.map ShEnded.noticed).getD false then m
  else match m.ownRank c with
    | none => m
    | some own =>
      let k := m.makeColl c ⟨0, 0, .shuttle, [], 0, 0, 0, []⟩ false d own
      let m := (m.noteNotice key).cnt 0xA00B 128 (some c) ((o.map ShEnded.committed).getD 0)
      (m.tallyNamed c h.status h.detail).sendAborts c { h with sender := (k.members.head?.map ShMember.h).getD 0 } k.below

/-- SHUTTLE_ABORT (R213). -/
def execShuttleAbort (s : State) : Host.Outcome State Fault Refusal :=
  shuttleMsgRow s fun m =>
    match m.takeMsg shAbort (fun _ => true) with
    | none => m
    | some (g, m) =>
      let h := shHdr g.hdr
      match m.coll (keyOf g.ctx h), m.group g.ctx h.gid with
      | some k, some d =>
        if d.epoch.toNat ≠ h.epoch then m.dropStale g
        else
          let m := m.cnt 0xA00B 128 (some g.ctx) (k.members.filter ShMember.committed).length
          let hdr := { k.hdr ((k.members.head?.map ShMember.h).getD 0) with kind := shAbort, status := h.status, detail := h.detail }
          (m.sendAborts g.ctx hdr k.below).failColl k.key h.status h.detail true
      | none, some d =>
        if d.epoch.toNat ≠ h.epoch then m.dropStale g
        else if seqBefore (2 ^ 31 - 1) (keyOf g.ctx h).seq d.expected then m.abortOver g d
        else m.holdEarly g
      | _, none => m.dropUnheld g

/-- SHUTTLE_STALE (R190): the collective fails with STALE_ROLE, detail the receiver's rank. -/
def execShuttleStale (s : State) : Host.Outcome State Fault Refusal :=
  shuttleMsgRow s fun m => m.onAnswer shStale fun g m =>
    m.failColl (keyOf g.ctx (shHdr g.hdr)) Status.staleRole.code (shHdr g.hdr).detail

/-- SHUTTLE_PROGRESS_TIMEOUT (R215). -/
def execShuttleProgressTimeout (key : CollKey) (s : State) : Host.Outcome State Fault Refusal :=
  runs s fun m =>
    match m.coll key with
    | none => m
    | some k =>
      if k.phase ≠ .admitted then m
      else m.over [128, 126] fun m => m.groupAbort key Status.timeout.code (objDetail 0x2C00 7)

/-! ### Commit (R212) -/

/-- A member may commit: it is done, and where the package stage writes to every die, so are the others of this module. -/
def Coll.mayCommit (k : Coll) (x : ShMember) : Bool :=
  !x.committed && k.memberDone x && (!k.multicasts || k.members.all k.memberDone)

/-- The first uncorrectable word that a member's writes cover only in part (R85). -/
def Mach.writesBad (m : Mach) (ws : List (Nat × Bytes)) : Option Nat := ws.findSome? fun w => m.spadPartBad w.1 w.2.length

/-- The collective has committed on this module. -/
def Mach.collDone (m : Mach) (k : Coll) : Mach :=
  let m := if k.reduces && (k.members.any fun x => match x.result with | some r => r.nonfinite | none => false) then
    m.cnt 0xA00A 128 (some k.key.ctx) else m
  let m := m.endColl k false
  if k.drover then m.snapshotPoint k.key.ctx else m.commitSlot k.key.ctx k.slot (k.faultRange, noRange)

/-- COLLECTIVE_COMMIT (R212): the next member of this module writes its bytes and commits; with the last, the slot commits. -/
def execCollectiveCommit (key : CollKey) (s : State) : Host.Outcome State Fault Refusal :=
  runs s fun m =>
    match m.coll key with
    | none => m
    | some k =>
      match k.members.find? k.mayCommit with
      | none => m
      | some x =>
        if !k.drover ∧ !m.mayCommit key.ctx k.slot then m
        else m.over k.path fun m =>
          let r := x.result.getD ⟨[], false, 0⟩
          match m.readFor key.ctx (if k.newResiduals r then m.srcRanges k x.die 0 k.s.src.count else []) with
          | (m, some e) => m.collFails key e
          | (m, none) =>
            let ws := m.commitWrites k r x
            match m.writesBad ws with
            | some w => (m.spadUe w (some key.ctx)).failColl key Status.uncorrectable.code (spadIsland (w * 8))
            | none =>
              let m := ws.foldl (fun m w => m.spadPut w.1 w.2 (some key.ctx)) m
              let m := m.modMember key x.h fun x => { x with committed := true }
              match m.coll key with
              | none => m
              | some k => if k.members.all ShMember.committed then m.collDone k else m

/-! ### Assembly (R206) -/

/-- A message is whole. Where no context here is meant to have its fold, a handshake message is held and any other dropped (R200,
R208). -/
def Mach.messageIn (m : Mach) (g : ShMsg) (held : Bool) : Mach :=
  let kind := (shHdr g.hdr).kind
  if held then { m with shut := { m.shut with rx := m.shut.rx ++ [g] } }
  else if kind = shScale ∨ kind = shResult ∨ kind = shScalar then m.holdEarly g
  else m.cnt 0xA008 128

/-- A BOBBIN packet that has arrived: the first carries the header, the others the data, keyed by source module. `c` is the context
that holds its fold, where one does. -/
def Mach.bobbinPacket (m : Mach) (src : Coord) (c : Option CtxId) (fold cls : Nat) (payload : Bytes) : Mach :=
  let hdr := BitVec.ofNat 512 (leNat payload)
  let whole := fun (g : ShMsg) (m : Mach) => m.messageIn { g with ctx := c.getD 0 } c.isSome
  if cls = clsRsp then whole ⟨src, 0, fold, hdr, []⟩ m
  else match m.shut.asm.find? fun (g : ShMsg) => decide (g.src = src) with
    | none =>
      let g : ShMsg := ⟨src, 0, fold, hdr, []⟩
      if (shHdr hdr).length = 0 then whole g m else { m with shut := { m.shut with asm := m.shut.asm ++ [g] } }
    | some g =>
      let g := { g with data := g.data ++ payload }
      let others := m.shut.asm.filter fun (x : ShMsg) => !decide (x.src = src)
      if (shHdr g.hdr).length ≤ g.data.length then whole g { m with shut := { m.shut with asm := others } }
      else { m with shut := { m.shut with asm := others ++ [g] } }

/-- The Drover's barrier starts over a group (R296 step 2): it consumes the group's next sequence. -/
def Mach.startBarrier (m : Mach) (c : CtxId) (gid : Nat) (w : WordRec) : Mach :=
  let seq := match m.group c gid with
    | some g => g.expected.toNat
    | none => 0
  let q : QSlot := { uid := w.uid, seq := w.seq, eng := .shuttle,
                     bytes := natLe 64 (place 5 375 372 + place gid 371 360 + place seq 407 376), seed := 0, step := w.step,
                     cls := m.classOf c, words := [] }
  m.startColl c q true fun m st d =>
    (m.modCtx c fun x => { x with stepHold := .none }).faultCtx c ⟨BitVec.ofNat 8 st.code, BitVec.ofNat 32 d, 7, w.seq, 0, w.step, true,
      noRange, noRange, 0xFF, m.now⟩

end Sys2Proof.Machine
end

