-- ==== Sys2Proof/Machine/Drover.lean ====
section
/-! DEFINITION. The Drover's checkpoint rows (R296 to R301, R307 to R309, R312): the step boundary, patch copies, BULK access,
rollback. -/

namespace Sys2Proof.Machine

open Sys2Proof

/-! ### The step boundary (R142, R296) -/

/-- Words of a context that have not completed. -/
def Ctx.openWord (x : Ctx) (uid : Nat) : Bool := x.words.any fun w => decide (w.uid = uid) && !w.completed

/-- STEP_BOUNDARY (R142, R296): the word has completed; it releases the context, or the step-boundary actions begin. -/
def execStepBoundary (c : CtxId) (s : State) : Host.Outcome State Fault Refusal :=
  runs s fun m =>
    let x := m.ctxs[c]
    match x.stepHold with
    | .word uid =>
      if x.openWord uid ∨ x.st ≠ .enabled then m
      else if m.ckptOn c then m.modCtx c fun x => { x with stepHold := .ready }
      else m.releaseStep c
    | _ => m

/-- The previous snapshot of a context lets the next one begin (R296 step 1, R300, R301): there is none, it is BUDDIED or
COMMITTED, or its copying failed; one whose buddy copy was refused or is lost waits for buddy_restream (R301, R309). -/
def Mach.prevSettled (m : Mach) (c : CtxId) : Bool :=
  let step := (m.ctxs[c]).step
  let s := m.drover.slots[localSlot step.toNat]
  if s.step ≠ step ∨ !s.owners.contains c then true
  else !(m.drover.ctxs[c]).refused && match s.st with
    | .free | .buddied | .committed | .failed => true
    | _ => false

/-- CKPT_BARRIER_START (R296 steps 1 and 2); the microseconds waited are counted. -/
def execCkptBarrierStart (c : CtxId) (waitUs : Nat) (s : State) : Host.Outcome State Fault Refusal :=
  runs s fun m =>
    let x := m.ctxs[c]
    let gid := m.num (ckptIdx c) 2
    let k := localSlot (x.step.toNat + 1)
    if x.stepHold ≠ .ready ∨ x.st ≠ .enabled ∨ !m.works ∨ !m.prevSettled c ∨
        m.drover.jobs.any (fun j => decide (j.reads = some k.val)) ∨ m.foldWaits c then m
    else m.over [130, 128, 126] fun m =>
      let m := m.cnt 0xC000 130 (some c) waitUs
      let m := m.modCtx c fun x => { x with stepHold := .barrier }
      match x.lastWord with
      | some w => m.startBarrier c gid w
      | none => m

/-! ### Copy-on-write (R298, R299) -/

/-- A held write has been let go: done, or stopped by an uncorrectable unit. -/
def Mach.finishHeld (m : Mach) (w : HeldWrite) : Mach :=
  match m.dramStore w.addr w.data (w.owner.map Prod.fst) with
  | (m, none) => m.payOut w.reply w.out
  | (m, some u) => match w.owner with
    | none => m
    | some (c, uid) => match m.moveJob c uid with
      | some j => m.failMove j Status.uncorrectable.code (dramIsland (u * 64))
      | none => match m.drover.jobs.find? fun j => decide (j.c = c ∧ j.slot.uid = uid) with
        | some j => ({ m with drover := { m.drover with jobs := m.drover.jobs.filter fun (k : VaultJob) => !decide (k = j) } }).failSlot c j.slot
            { status := .uncorrectable, detail := dramIsland (u * 64), island := dramIsland (u * 64) }
        | none => m

/-- Let every held write go whose patches are copied, in the order they came. -/
def Mach.releaseHeld (m : Mach) : Nat → Mach
  | 0 => m
  | f + 1 =>
    match takeFirst (fun (w : HeldWrite) => !m.patchHeld w.addr w.data.length) m.drover.heldWrites with
    | none => m
    | some (w, rest) => (({ m with drover := { m.drover with heldWrites := rest } }).finishHeld w).releaseHeld f

/-- The patch to copy next: that of the oldest held write, or the lowest live address (R298, R299). -/
def Mach.nextPatch (m : Mach) : Option (Fin 2 × Nat × Nat) :=
  let all := [(0 : Fin 2), 1].flatMap fun k =>
    if (m.drover.slots[k]).st = .frozen then (m.drover.slots[k]).uncopied.map fun e => (k, e.1, e.2) else []
  let wanted := fun (e : Fin 2 × Nat × Nat) => m.drover.heldWrites.any fun w =>
    decide (e.2.1 * patchBytes < w.addr + w.data.length) && decide (w.addr < (e.2.1 + 1) * patchBytes)
  let pick := match all.filter wanted with
    | [] => all
    | l => l
  pick.foldl (fun a e => match a with
    | none => some e
    | some b => if e.2.1 < b.2.1 then some e else some b) none

/-- Copy one patch from its live place into its slot, with what ECC corrects as it is read; an uncorrectable unit is the answer. -/
def Mach.copyPatch (m : Mach) (k : Fin 2) (live slot : Nat) : Mach × Option Nat :=
  match m.fetchDram (live * patchBytes) patchBytes none with
  | (m, .error i) => (m, some i)
  | (m, .ok b) => ((m.dramPut (slot * patchBytes) b).modSnap k fun s =>
      { s with uncopied := s.uncopied.filter (fun e => !decide (e = (live, slot))), copied := s.copied + 1 }, none)

/-- PATCH_COPY (R298 to R300): the next uncopied patch is copied, or the snapshot fails; writes held for it proceed. `upset` names a
unit of the patch that the copy finds uncorrectable. -/
def execPatchCopy (stallNs : Nat) (upset : Option Nat) (s : State) : Host.Outcome State Fault Refusal :=
  runs s fun m =>
    match m.nextPatch with
    | none => m
    | some (k, live, slot) => m.over (130 :: dramPath (live * patchBytes) patchBytes ++ dramPath (slot * patchBytes) patchBytes) fun m =>
      let held := m.drover.heldWrites.length
      let m := match upset with
        | some i => m.modMem fun s => s.upset (.dramMulti (live * (patchBytes / 64) + i % (patchBytes / 64)))
        | none => m
      let m := match m.copyPatch k live slot with
        | (m, some _) => m.snapFailed k none
        | (m, none) => m.settleSnap k
      let m := m.releaseHeld held
      if m.drover.heldWrites.length < held then m.cnt 0xC002 130 none stallNs else m

/-- COW_STALL_OVER_BOUND (R299). -/
def execCowStallOverBound (stallUs : Nat) (s : State) : Host.Outcome State Fault Refusal :=
  runs s fun m =>
    if m.drover.heldWrites = [] ∨ stallUs ≤ m.num 0x2B00 5 then m
    else m.over [130] fun m => (m.cnt 0xC003 130).emcy 0xFF09 stallUs 2 none 130

/-! ### Buddy slots and imports (R301, R307, R309, R312) -/

/-- The newest snapshot of a context: the slot that holds it. -/
def Mach.newestSnap (m : Mach) (c : CtxId) : Option (Fin 2) :=
  let has := fun (k : Fin 2) => (m.drover.slots[k]).owners.contains c && decide ((m.drover.slots[k]).st ≠ .free)
  match has 0, has 1 with
  | true, true => some (if (m.drover.slots[(0 : Fin 2)]).step.toNat < (m.drover.slots[(1 : Fin 2)]).step.toNat then 1 else 0)
  | true, false => some 0
  | false, true => some 1
  | false, false => none

/-- A DRAM range lies in slot k of the Drover's four. -/
def Mach.inSlot (m : Mach) (k a n : Nat) : Bool :=
  decide (m.slotBase k ≤ a) && decide (a + n ≤ m.slotBase k + m.slotBytes)

/-- The context of a BULK packet's fold, where the module holds a rank in it (R268). -/
def Mach.bulkCtx (m : Mach) (h : Hdr) : Option CtxId := m.memberCtx h.fold

/-- A packet comes from the far end of a STORAGE bundle (R251, R312). -/
def Mach.fromStorage (m : Mach) (h : Hdr) : Bool :=
  m.net.bundles.toList.any fun b => decide (b.role = 3) && decide (b.far = h.src)

/-- The last packet of a context's CONTROL record has been written into a buddy slot: the source's step is recorded (R301). -/
def Mach.buddyHeader (m : Mach) (c : CtxId) (t : Fin 2) (h : Hdr) : Mach :=
  let base := m.slotBase (2 + t.val) + c.val * controlLen
  if h.addr + h.length ≠ base + controlLen then m
  else match Control.ofFields c (Config.controlFields (m.dramRead base controlLen)) with
    | some k => { m with drover := { m.drover with buddies := Vec.upd m.drover.buddies t fun _ => ⟨k.step, h.src⟩ } }
    | none => m

/-- Refuse a BULK access (R301). -/
def Mach.bulkReject (m : Mach) (h : Hdr) : Mach :=
  (m.cnt 0xC004 130 (m.bulkCtx h)).ack h Status.windowViolation.code

/-- Write a BULK PUT into DRAM and answer it. -/
def Mach.bulkStore (m : Mach) (h : Hdr) (b : Bytes) (after : Mach → Mach) : Mach :=
  match (m.wake (dramPath h.addr b.length)).dramStore h.addr b (m.bulkCtx h) with
  | (m, some _) => m.ack h Status.uncorrectable.code
  | (m, none) => (after m).ack h 0

/-- The source that a buddy slot accepts: the rank that buddy_source_rank names, at its coordinates (R301). -/
def Mach.buddySource (m : Mach) (h : Hdr) : Option CtxId :=
  match m.bulkCtx h with
  | none => none
  | some c => match m.rankOf c (m.num (ckptIdx c) 5) with
    | some far => if far.1 = h.src then some c else none
    | none => none

/-- The import slot that a STORAGE bundle may fill: named by ckpt_import_slot, and FREE (R312). -/
def Mach.importSlot (m : Mach) (h : Hdr) : Bool :=
  m.fromStorage h && [(0 : Fin 2), 1].any fun k => m.inSlot k.val h.addr h.length && decide ((m.drover.slots[k]).st = .free) &&
    allCtx.any fun c => decide (m.num (ckptIdx c) 0x0D = k.val)

/-! ### Rollback (R307, R308) -/

/-- Every engine of a context is IDLE and its command queue is empty (R308). -/
def Mach.ctxIdle (m : Mach) (c : CtxId) : Bool :=
  let x := m.ctxs[c]
  decide (x.cmdQ = []) && x.queues.toList.all (fun q => q.isEmpty) &&
    !(m.mv.jobs.any (fun j => decide (j.c = c)) || m.arrays.any (fun j => decide (j.c = c)) || m.vecs.any (fun j => decide (j.c = c)) ||
      m.audits.any (fun j => decide (j.c = c)) || m.drover.jobs.any (fun j => decide (j.c = c)) ||
      m.shut.colls.any (fun k => decide (k.key.ctx = c)))

/-- The local slot from which a context can roll back to a step (R300, R308). -/
def Mach.rollSource (m : Mach) (c : CtxId) (step : Nat) : Option (Fin 2) :=
  [(0 : Fin 2), 1].find? fun k => let s := m.drover.slots[k]
    decide (s.step.toNat = step) && s.owners.contains c && (decide (s.st = .buddied) || decide (s.st = .committed))

/-- A rollback fails (R308). -/
def Mach.rollFailed (m : Mach) (c : CtxId) : Mach :=
  (m.modCkpt c fun k => { k with roll := .failed, restore := none }).emcy 0xFF0B c.val 3 (some c) 130

/-- Fetch the next part of a holder's buddy slot: first the CONTROL record, then the images (R308). -/
def Mach.restoreNext (m : Mach) (c : CtxId) : Mach :=
  match (m.drover.ctxs[c]).restore, (m.drover.ctxs[c]).adopt with
  | some t, some rank =>
    if t.waiting ∨ t.stop ≤ t.pos then m
    else
      let n := min 4096 (t.stop - t.pos)
      let v := if t.headerSent then t.pos else m.imageLen c + t.pos
      match m.rankOf c rank with
      | none => m.rollFailed c
      | some far =>
        if !m.canReach clsBulk far.1 then m.rollFailed c
        else
          let h : Hdr := { epoch := far.2, fold := m.foldId c, length := n, ty := tyGet, cls := clsBulk, ctx := c.val,
                           addr := m.streamAddr c (2 + t.slot) v, dram := true, dst := far.1 }
          let m := m.modCkpt c fun x => { x with restore := some { t with waiting := true } }
          (m.launch (.buddy c) rank t.pos h []).releaseFlights
  | _, _ => m

/-- Live address of byte v of a context's images. -/
def liveAddr : List Region → Nat → Nat
  | [], v => v
  | r :: rest, v => if v < r.patches * patchBytes then r.addr + v else liveAddr rest (v - r.patches * patchBytes)

/-- The region table of a CONTROL record takes effect, so that the images behind it find their places. -/
def Mach.adoptRegions (m : Mach) (c : CtxId) (k : Control) : Mach := m.setObj (ckptIdx c) 9 (.bytes k.regions)

/-- Data of a holder's buddy slot have arrived. -/
def Mach.restoreData (m : Mach) (c : CtxId) (b : Bytes) : Mach :=
  match (m.drover.ctxs[c]).restore with
  | none => m
  | some t =>
    let slot : Fin 2 := Fin.ofNat 2 t.slot
    let put := fun (a : Nat) (m : Mach) => (m.wake (130 :: dramPath a b.length)).dramPut a b
    let pos := t.pos + b.length
    if t.headerSent then
      let m := put (liveAddr (m.regions c) t.pos) m
      (m.modCkpt c fun x => { x with restore := some { t with pos := pos, waiting := false } }).restoreNext c
    else
      let base := m.slotBase slot.val + c.val * controlLen
      let m := put (base + t.pos) m
      if pos < t.stop then
        (m.modCkpt c fun x => { x with restore := some { t with pos := pos, waiting := false } }).restoreNext c
      else match Control.ofFields c (Config.controlFields (m.dramRead base controlLen)) with
        | none => m.rollFailed c
        | some k =>
          if k.step ≠ (m.drover.ctxs[c]).rollStep then m.rollFailed c
          else
            let m := m.adoptRegions c k
            let m := m.modSnap slot fun s => { s with control := Vec.upd s.control c fun _ => some k }
            (m.modCkpt c fun x => { x with restore := some ⟨t.slot, 0, m.imageLen c, true, false⟩ }).restoreNext c

/-- The answer to a buddy stream's or a restore's packet was negative, or did not come. -/
def Mach.buddyLost (m : Mach) (c : CtxId) : Mach :=
  if (m.drover.ctxs[c]).restore.isSome then m.rollFailed c else m.buddyFailed c

/-- The writer of ckpt_rollback. Whether an adopted holder holds the step shows only when its CONTROL record arrives: until then
the write is accepted (log 23). -/
def wrCkptRollback (c : CtxId) : Writer := fun m _ v =>
  let step := v.toNum
  let start := fun (slot : Nat) (r : Option Stream) (m : Mach) => m.modCkpt c fun x =>
    { x with roll := .running, rollSlot := slot, rollStep := BitVec.ofNat 64 step, restore := r, stream := none }
  match (m.drover.ctxs[c]).adopt with
  | some _ =>
    .guard (!m.ctxIdle c) abState
      (let slot := (localSlot step).val
       .ok ((start slot (some ⟨slot, 0, controlLen, false, false⟩) m).restoreNext c))
  | none => match m.rollSource c step with
    | none => .err abRange
    | some k => .guard (!m.ctxIdle c) abState (.ok (start k.val none m))

/-- CKPT_ROLLBACK (R308). -/
def execCkptRollback (ch : Channel) (c : CtxId) (data : Bytes) (s : State) : Host.Outcome State Fault Refusal :=
  runs s fun m => m.dictWrite ch (ckptIdx c) 0x0A data (wrCkptRollback c)

/-- Load a CONTROL record (R308 step 2); a new word digest starts (R332). -/
def Mach.loadControl (m : Mach) (c : CtxId) (k : Control) : Mach :=
  let m := m.modCtx c fun x => { x with seed := k.seed, step := k.step, expected := BitVec.ofNat 16 k.nextSeq, wordBytes := [] }
  let m := m.setObj (ctxIdx c 0) 4 (.num (k.nextSeq % 65536))
  let m := m.spadWrite (m.num (ckptIdx c) 3) k.block
  let m := m.setObj (ckptIdx c) 9 (.bytes k.regions)
  let m := (List.range 4).foldl (fun m i => m.setObj (ctxIdx c 4) (i + 1) (.num (k.settings.getD i 0))) m
  { m with shut := { m.shut with groups := (m.shut.groups.filter fun g => !decide (g.ctx = c)) ++ k.groups } }

/-- Copy the patches of a context's images back into its regions: those that have been copied (R308 step 1). An uncorrectable unit
stops it. -/
def Mach.copyBack (m : Mach) (c : CtxId) (k : Fin 2) : Mach × Bool :=
  let un := (m.drover.slots[k]).uncopied
  let pairs := (patchPairs (m.regions c) ((m.slotBase k.val + m.imageStart c) / patchBytes)).filter fun e => !un.contains e
  pairs.foldl (fun r e =>
    if !r.2 then r
    else match (r.1.wake (dramPath (e.1 * patchBytes) patchBytes)).fetchDram (e.2 * patchBytes) patchBytes (some c) with
      | (m, .error _) => (m, false)
      | (m, .ok b) => (m.dramPut (e.1 * patchBytes) b, true)) (m, true)

/-- ROLLBACK_DONE (R308): the images are back, the CONTROL record is loaded, the other slot is FREE. -/
def execRollbackDone (c : CtxId) (ok : Bool) (s : State) : Host.Outcome State Fault Refusal :=
  runs s fun m =>
    let x := m.drover.ctxs[c]
    if x.roll ≠ .running then m
    else
      let k : Fin 2 := Fin.ofNat 2 x.rollSlot
      let waits := match x.restore with
        | some t => !t.headerSent || decide (t.pos < t.stop)
        | none => false
      if !ok then m.rollFailed c
      else if waits then m
      else m.over (130 :: spadPath (m.num (ckptIdx c) 3) 4096) fun m =>
        match (m.drover.slots[k]).control[c], (if x.restore.isSome then (m, true) else m.copyBack c k) with
        | some ctl, (m, true) =>
          let m := m.loadControl c ctl
          let m := m.modSnap (k + 1) fun s => { s with st := .free, uncopied := [], copied := 0 }
          m.modCkpt c fun y => { y with roll := .done, restore := none }
        | _, (m, _) => m.rollFailed c

/-- The writer of ckpt_adopt_holder. -/
def wrCkptAdoptHolder (c : CtxId) : Writer := fun m _ v => .ok (m.modCkpt c fun x => { x with adopt := some v.toNum })

/-- CKPT_ADOPT_HOLDER (R307 step 5). -/
def execCkptAdoptHolder (ch : Channel) (c : CtxId) (data : Bytes) (s : State) : Host.Outcome State Fault Refusal :=
  runs s fun m => m.dictWrite ch (ckptIdx c) 0x0B data (wrCkptAdoptHolder c)

/-- The writer of buddy_restream: the stream of the newest snapshot starts again; a slot whose patches are
all copied, and that a refused stream had failed, is LOCAL again (log 61). -/
def wrBuddyRestream (c : CtxId) : Writer := fun m _ _ =>
  match m.newestSnap c with
  | none => .ok m
  | some k =>
    let m := m.modSnap k fun s => if s.st = .failed ∧ s.uncopied = [] then { s with st := .held } else s
    .ok (m.streamStart c k.val)

/-- BUDDY_RESTREAM (R301, R309). -/
def execBuddyRestream (ch : Channel) (c : CtxId) (data : Bytes) (s : State) : Host.Outcome State Fault Refusal :=
  runs s fun m => m.dictWrite ch (ckptIdx c) 7 data (wrBuddyRestream c)

/-- The writer of buddy_holder_rank: a member that is given another holder has no buddy copy any more, and its next snapshot waits for
buddy_restream (R301, R309). -/
def wrBuddyHolder (c : CtxId) : Writer := fun m _ v =>
  let m' := m.setObj (ckptIdx c) 4 v
  .ok (if m.num (ckptIdx c) 4 = v.toNum then m
    else if (m.drover.ctxs[c]).stream.isSome then m'.buddyFailed c
    else m'.modCkpt c fun k => if k.buddy = 0 then k else { k with buddy := 0, refused := true })

/-- The writer of buddy_source_rank: the buddy slots held for the former source are released (R309). -/
def wrBuddySource (c : CtxId) : Writer := fun m _ v =>
  let former := (m.rankOf c (m.num (ckptIdx c) 5)).map Prod.fst
  let m' := m.setObj (ckptIdx c) 5 v
  .ok (if m.num (ckptIdx c) 5 = v.toNum then m
    else { m' with drover := { m'.drover with
      buddies := m'.drover.buddies.map fun b => if some b.coords = former then ⟨0, 0⟩ else b } })

/-- The writer of ckpt_import_done: an imported slot becomes BUDDIED. -/
def wrCkptImportDone (c : CtxId) : Writer := fun m _ v =>
  let n := m.num (ckptIdx c) 0x0D
  let k : Fin 2 := Fin.ofNat 2 n
  let step := BitVec.ofNat 64 v.toNum
  let sl := m.drover.slots[k]
  let again := decide (sl.st = .buddied) && decide (sl.step = step)
  .guard (decide (2 ≤ n) || (decide (sl.st ≠ .free) && !again)) abState
    (let ctl := Control.ofFields c (Config.controlFields (m.dramRead (m.slotBase k.val + c.val * controlLen) controlLen))
     let m := m.modSnap k fun s => { s with
       st := .buddied, step := step, uncopied := [], control := Vec.upd s.control c fun _ => ctl,
       owners := c :: (if again then s.owners.filter (· ≠ c) else []) }
     .ok (if again then m else m.tellBuddied k))

/-- CKPT_IMPORT_DONE (R312). -/
def execCkptImportDone (ch : Channel) (c : CtxId) (data : Bytes) (s : State) : Host.Outcome State Fault Refusal :=
  runs s fun m => m.dictWrite ch (ckptIdx c) 0x0E data (wrCkptImportDone c)

end Sys2Proof.Machine
end

