-- ==== Sys2Proof/Machine/Vault.lean ====
section
/-! DEFINITION. The vault (R302 to R306, R310, R313 to R316): shards and parity shares, the VAULT rows, dies and blocks; and the
rows that serve BULK packets (R301, R303, R305, R312). -/

namespace Sys2Proof.Machine

open Sys2Proof

/-! ### Stripe groups, pieces, headers (R302, R303, R306) -/

/-- The tag of a CONTROL shard. -/
def tagControl : Nat := 0xFFFFFFFF

/-- Offset reserved for a piece's header in an intake address (R303). -/
def pieceHdrOff : Nat := 0x7FFFFFFFFF

/-- stripe_members of a context. -/
def Mach.stripeG (m : Mach) (c : CtxId) : Nat := m.num (ckptIdx c) 8

/-- Rank of member j of the stripe group of rank r. -/
def stripeRank (g r j : Nat) : Nat := r / max 1 g * g + j

/-- Bytes of a piece of a shard of n bytes (R302). -/
def pieceLen (n g : Nat) : Nat := cdiv n (4096 * max 1 (g - 1)) * 4096

/-- Piece k of a shard, padded with zeros. -/
def pieceOf (d : Bytes) (g k : Nat) : Bytes :=
  let p := pieceLen d.length g
  let b := slice (k * p) p d
  b ++ List.replicate (p - b.length) 0

/-- XOR of byte strings, each padded with zeros to the longest. -/
def xorAll (l : List Bytes) : Bytes :=
  let n := l.foldl (fun a b => max a b.length) 0
  l.foldl (fun a b => (a.zip (b ++ List.replicate (n - b.length) 0)).map fun p => p.1 ^^^ p.2) (List.replicate n 0)

/-- The 128-byte header of a shard (R306). -/
def Shard.header (s : Shard) : Bytes :=
  let body := leNat s.digest * 2 ^ 768 + place s.step.toNat 767 704 + place s.generation.toNat 703 672 + place s.slice.toNat 671 544 +
    place s.tag.toNat 543 512 + place s.data.length 511 472 + place s.fold 471 456 + place s.rank 455 442 + place s.kind 441 440 +
    place s.members 439 432 + place s.index 431 424 + place 1 423 416 + place Config.moduleSerial.toNat 415 352 +
    place s.pieceUnits 351 320
  let b := natLe 128 body
  natLe 4 (crc32 (b.drop 4)).toNat ++ b.drop 4

/-- A header read back: its fields, with no data. -/
def Shard.ofHeader (b : Bytes) : Shard :=
  let n := leNat b
  { kind := bits n 441 440, fold := bits n 471 456, generation := BitVec.ofNat 32 (bits n 703 672),
    tag := BitVec.ofNat 32 (bits n 543 512), slice := BitVec.ofNat 128 (bits n 671 544), rank := bits n 455 442,
    step := BitVec.ofNat 64 (bits n 767 704), members := bits n 439 432, index := bits n 431 424, pieceUnits := bits n 351 320,
    digest := natLe 32 (n / 2 ^ 768), data := [] }

/-- Length a header announces. -/
def headerLen (b : Bytes) : Nat := bits (leNat b) 511 472

/-- A header's CRC is right. -/
def headerOk (b : Bytes) : Bool := decide (leNat (b.take 4) = (crc32 (slice 4 124 b)).toNat)

/-- KiB a shard takes in the vault: its header padded to 4 KiB, its data in codewords of 4 KiB. -/
def shardKib (n : Nat) : Nat := 4 + cdiv n 4096 * 4

/-! ### The vault's contents -/

/-- A shard of the vault. -/
def Mach.shardAt (m : Mach) (fold gen tag : Nat) (parity : Bool) : Option Shard :=
  m.drover.shards.find? fun s => decide (s.fold = fold) && decide (s.generation.toNat = gen) && decide (s.tag.toNat = tag) &&
    decide ((s.kind = 2) ↔ (parity = true))

/-- Put a shard into the vault in place of one with the same fold, generation, tag and kind. -/
def Mach.putShard (m : Mach) (s : Shard) : Mach :=
  let same := fun (x : Shard) => decide (x.fold = s.fold) && decide (x.generation = s.generation) && decide (x.tag = s.tag) &&
    decide ((x.kind = 2) ↔ (s.kind = 2))
  let back := ((m.drover.shards.filter same).map fun x => shardKib x.data.length).sum
  { m with drover := { m.drover with
      shards := (m.drover.shards.filter fun x => !same x) ++ [s], freeKib := m.drover.freeKib + back - shardKib s.data.length } }

/-- A generation of the catalog. -/
def Mach.gen (m : Mach) (fold gen : Nat) : Option Gen :=
  m.drover.gens.find? fun g => decide (g.fold = fold) && decide (g.generation.toNat = gen)

/-- Change a generation, entering it first where it is new. -/
def Mach.modGen (m : Mach) (fold gen : Nat) (step : BitVec 64) (f : Gen → Gen) : Mach :=
  let mine := fun (g : Gen) => decide (g.fold = fold) && decide (g.generation.toNat = gen)
  let gens := if m.drover.gens.any mine then m.drover.gens
    else m.drover.gens ++ [⟨fold, BitVec.ofNat 32 gen, step, 0, false, []⟩]
  { m with drover := { m.drover with gens := gens.map fun g => if mine g then f g else g } }

/-- A generation is COMPLETE once it is closed and every tag it lists has its shard and its parity share (R304). -/
def Mach.genSettle (m : Mach) (fold gen : Nat) : Mach :=
  { m with drover := { m.drover with gens := m.drover.gens.map fun g =>
      if g.fold = fold ∧ g.generation.toNat = gen ∧ g.st = 0 ∧ g.closed ∧
          (g.tags.all fun t => (m.shardAt fold gen t.toNat false).isSome && (m.shardAt fold gen t.toNat true).isSome)
      then { g with st := 1 } else g } }

/-- vault_state changes: EMCY 0xFF0D (R314). -/
def Mach.setVault (m : Mach) (st : Nat) : Mach :=
  if m.drover.vault = st then m
  else ({ m with drover := { m.drover with vault := st } }).emcy 0xFF0D st 2 none 130

/-! ### STRIPE_WRITE (R303, R304) -/

/-- Where a STRIPE_WRITE takes its bytes from. -/
inductive VaultSrc where
  | snap (k : Fin 2) (addr : Nat)
  | live
  | control (k : Fin 2)
  | bad
  deriving DecidableEq, Repr

/-- Place in a slot of a region's image. -/
def Mach.imageOf (m : Mach) (c : CtxId) (k : Fin 2) (r : Region) : Nat :=
  let before := (m.regions c).takeWhile fun x => decide (x ≠ r)
  m.slotBase k.val + m.imageStart c + patchCount before * patchBytes

/-- The source of a STRIPE_WRITE (R303). -/
def Mach.vaultSrc (m : Mach) (c : CtxId) (v : VaultSlot) : VaultSrc :=
  if v.tag = tagControl then
    if v.dram ≠ 0 then .bad else match m.newestSnap c with
      | some k => .control k
      | none => .bad
  else match (m.regions c).find? fun r => decide (r.addr = v.dram) with
    | some r =>
      if v.tag ≠ r.tag ∨ v.length ≠ r.patches * patchBytes then .bad else match m.newestSnap c with
        | some k => .snap k (m.imageOf c k r)
        | none => .bad
    | none => if m.dramInWindow c v.dram v.length then .live else .bad

/-- Tags that a member has written to a generation. -/
def Mach.genTags (m : Mach) (fold gen : Nat) : List (BitVec 32) := ((m.gen fold gen).map Gen.tags).getD []

/-- Bytes of a source. -/
def Mach.vaultLen (m : Mach) (c : CtxId) (v : VaultSlot) : Nat :=
  if v.tag = tagControl then controlLen + 4 * (m.genTags (m.foldId c) v.generation).length else v.length

/-- The Drover reads the bytes and the header step of a source; an uncorrectable unit is the answer where it meets one (R85, R303). -/
def Mach.vaultRead (m : Mach) (c : CtxId) (q : QSlot) (v : VaultSlot) : Mach × Except Nat (Bytes × BitVec 64) :=
  match m.vaultSrc c v with
  | .snap k a => match m.snapFetchAll k a v.length (some c) with
    | (m, .error u) => (m, .error (dramIsland (u * 64)))
    | (m, .ok b) => (m, .ok (b, (m.drover.slots[k]).step))
  | .control k =>
    let ctl := ((m.drover.slots[k]).control[c]).map Control.bytes |>.getD []
    (m, .ok (ctl ++ (m.genTags (m.foldId c) v.generation).flatMap fun t => natLe 4 t.toNat, (m.drover.slots[k]).step))
  | _ => match m.fetchDram v.dram v.length (some c) with
    | (m, .error i) => (m, .error i)
    | (m, .ok b) => (m, .ok (b, q.step))

/-- The local slot a source reads. -/
def VaultSrc.reads : VaultSrc → Option Nat
  | .snap k _ => some k.val
  | .control k => some k.val
  | _ => none

/-- The vault is write-protected (STRAP[15]). -/
def Mach.vaultProtected (m : Mach) : Bool := m.pwr.straps.getLsbD 15

/-- The conditions of R304 that a STRIPE_WRITE meets at its start, after its window and registration. -/
def Mach.stripeCheck (m : Mach) (c : CtxId) (v : VaultSlot) : Option (Status × Nat) :=
  let g := m.stripeG c
  let ranks := ((m.ctxFold c).map Fold.ranks).getD 0
  if m.vaultSrc c v = .bad then some (.windowViolation, 0)
  else if ((m.gen (m.foldId c) v.generation).map fun x => x.closed || decide (x.st = 2)).getD false then
    some (.badSlot, badSlotDetail 8 v.generation)
  else if g < 2 ∨ 16 < g ∨ ranks % max 1 g ≠ 0 then some (.badSlot, badSlotDetail 9 g)
  else if m.vaultProtected then some (.badSlot, badSlotDetail 10 0)
  else if m.drover.vault = 3 then some (.uncorrectable, 130)
  else none

/-- Room for a shard of n bytes and for a parity share of it. -/
def Mach.vaultRoom (m : Mach) (n g : Nat) : Bool := decide (shardKib n + shardKib (pieceLen n g) ≤ m.drover.freeKib)

/-- The islands of a VAULT slot: the Drover, and the way to the DRAM it names (R11). -/
def VaultSlot.path (v : VaultSlot) : List IslandId := 130 :: 126 :: dramPath v.dram v.length

/-- Head VAULT slot of a context, of one op, when nothing keeps it from starting but space. -/
def Mach.vaultHead (m : Mach) (c : CtxId) (op : Nat) : Option QSlot :=
  match m.startable c .vault with
  | none => none
  | some q =>
    if (parseVault q.bytes).op ≠ op ∨ !m.works ∨ !m.reachable (parseVault q.bytes).path ∨ m.headAhead c .vault q ∨
        m.drover.jobs.any (fun j => decide (j.c = c)) then none
    else some q

/-- The shard that a STRIPE_WRITE writes. -/
def Mach.stripeShard (m : Mach) (c : CtxId) (v : VaultSlot) (data : Bytes) (step : BitVec 64) : Shard :=
  let r := (m.ownRank c).getD 0
  let g := m.stripeG c
  { kind := if v.tag = tagControl then 1 else 0, fold := m.foldId c, generation := BitVec.ofNat 32 v.generation,
    tag := BitVec.ofNat 32 v.tag, slice := BitVec.ofNat 128 v.slice, rank := r, step := step, members := g, index := r % max 1 g,
    pieceUnits := pieceLen data.length g / 4096, digest := sha3 data, data := data }

/-- Find a VAULT job. -/
def Mach.vaultJob (m : Mach) (c : CtxId) (uid : Nat) : Option VaultJob :=
  m.drover.jobs.find? fun j => decide (j.c = c ∧ j.slot.uid = uid)

/-- Change a VAULT job. -/
def Mach.modVault (m : Mach) (c : CtxId) (uid : Nat) (f : VaultJob → VaultJob) : Mach :=
  { m with drover := { m.drover with jobs := m.drover.jobs.map fun j => if j.c = c ∧ j.slot.uid = uid then f j else j } }

/-- Remove a VAULT job with its packets and held writes. -/
def Mach.dropVault (m : Mach) (c : CtxId) (uid : Nat) : Mach :=
  let m := { m with
    drover := { m.drover with jobs := m.drover.jobs.filter fun (j : VaultJob) => !decide (j.c = c ∧ j.slot.uid = uid) },
    mv := { m.mv with flights := leaveFlights (.shard c uid) false m.mv.flights } }
  m.dropHeld c uid

/-- A VAULT slot that has started fails. A STRIPE_WRITE writes no DRAM: its ranges are empty (R304). -/
def Mach.failVault (m : Mach) (j : VaultJob) (st : Status) (detail : Nat) (isl : Nat := islandOf st.code detail) : Mach :=
  let v := parseVault j.slot.bytes
  let r := if v.op = 1 then dramRange v.dram v.length else noRange
  (m.dropVault j.c j.slot.uid).failSlot j.c j.slot { status := st, detail := detail, range0 := r, island := isl }

/-- A started VAULT slot stops: what READ would have written is undefined (R150). -/
def Mach.stopVault (m : Mach) (j : VaultJob) : Mach :=
  let v := parseVault j.slot.bytes
  let m := m.dropVault j.c j.slot.uid
  if v.op = 1 ∧ j.headerSent then m.dramScramble v.dram v.length else m

/-- Send the next packet of a STRIPE_WRITE's pieces: a piece's header, with FENCE, then its data; one is outstanding at a time
(log 20). -/
def Mach.stripeNext (m : Mach) (c : CtxId) (uid : Nat) : Mach :=
  match m.vaultJob c uid with
  | none => m
  | some j =>
    let g := m.stripeG c
    let v := parseVault j.slot.bytes
    let r := (m.ownRank c).getD 0
    let i := r % max 1 g
    if g ≤ j.piece + 1 ∨ j.outstanding ≠ 0 then m
    else
      let dest := stripeRank g r ((i + j.piece + 1) % g)
      let d := pieceOf j.data g j.piece
      match m.rankOf c dest with
      | none => m.failVault j .linkLost dest
      | some far =>
        if !m.canReach clsBulk far.1 then m.failVault j .linkLost dest
        else
          let off := if j.headerSent then j.pos else pieceHdrOff
          let b := if j.headerSent then slice j.pos 4096 d else (m.stripeShard c v j.data j.step).header
          let h : Hdr := { epoch := far.2, fold := m.foldId c, length := b.length, ty := tyPut, cls := clsBulk, ctx := c.val,
                           fence := !j.headerSent, addr := 2 ^ 43 + i * 2 ^ 39 + off, dram := true, dst := far.1 }
          let m := m.modVault c uid fun j => { j with outstanding := 1 }
          (m.launch (.shard c uid) dest j.piece h b).releaseFlights

/-- An ACK of a piece's packet. -/
def Mach.stripeAck (m : Mach) (c : CtxId) (uid : Nat) : Mach :=
  match m.vaultJob c uid with
  | none => m
  | some j =>
    let len := pieceLen j.data.length (m.stripeG c)
    let pos := if j.headerSent then j.pos + 4096 else 0
    let m := m.modVault c uid fun j =>
      if len ≤ pos then { j with outstanding := 0, piece := j.piece + 1, pos := 0, headerSent := false }
      else { j with outstanding := 0, pos := pos, headerSent := true }
    m.stripeNext c uid

/-- A vault sensor is at its critical point: vault programming stops and STRIPE_WRITE slots wait (R403). -/
def Mach.vaultHot (m : Mach) : Bool :=
  (List.range 8).any fun k =>
    let x := m.sensors[(Fin.ofNat 160 (146 + k) : SensorId)]
    decide (x.status = .ok) && decide (85000 ≤ x.value)

/-- STRIPE_WRITE (R303, R304): its checks, then its pieces go to their holders. Without room it waits, and the vault shows
READ_ONLY (R314); it waits while the vault is too hot to program (R403). -/
def execStripeWrite (c : CtxId) (s : State) : Host.Outcome State Fault Refusal :=
  runs s fun m =>
    if m.vaultHot then m
    else match m.vaultHead c 0 with
    | none => m
    | some q =>
      let v := parseVault q.bytes
      match m.stripeCheck c v with
      | some (st, d) => ((m.takeHead c .vault).wake v.path).failSlot c q
          { status := st, detail := d, island := if st = .uncorrectable then 130 else 0xFF }
      | none =>
        if !m.vaultRoom (m.vaultLen c v) (m.stripeG c) then m.setVault 2
        else match ((m.takeHead c .vault).wake v.path).vaultRead c q v with
          | (m, .error i) => m.failSlot c q { status := .uncorrectable, detail := i, island := i }
          | (m, .ok (b, step)) =>
            let j : VaultJob := {
              c := c, slot := q, data := b, step := step, reads := (m.vaultSrc c v).reads, piece := 0, pos := 0,
              headerSent := false, outstanding := 0, failed := none, fetched := [] }
            ({ m with drover := { m.drover with jobs := m.drover.jobs ++ [j] } }).stripeNext c q.uid

/-- The completed pieces that a member's parity share of a tag is made of, one from each other member of the group. -/
def Mach.piecesOf (m : Mach) (c : CtxId) (gen tag : Nat) : List Piece :=
  m.drover.pieces.filter fun p =>
    let h := Shard.ofHeader p.hdr
    p.complete && decide (h.fold = m.foldId c) && decide (h.generation.toNat = gen) && decide (h.tag.toNat = tag)

/-- Every other member of the stripe group has sent its piece. -/
def Mach.piecesHere (m : Mach) (c : CtxId) (v : VaultSlot) : Bool :=
  let g := m.stripeG c
  let i := ((m.ownRank c).getD 0) % max 1 g
  (List.range g).all fun k => decide (k = i) || (m.piecesOf c v.generation v.tag).any fun p => decide (p.sender = k)

/-- How the codewords of a block read (R313). -/
def Mach.markOf (m : Mach) (b : Nat) : CodewordRead := Sparse.get (.decoded 0 0) b m.drover.marks

/-- Codewords have come to read in another way: cells age, and lose what they hold (R313, R315). -/
def Mach.age (m : Mach) (ws : List VaultCodeword) : Mach :=
  { m with drover := { m.drover with marks := ws.foldl (fun t w => Sparse.set (.decoded 0 0) w.block w.read t) m.drover.marks } }

/-- Codewords in some blocks, as they read. -/
def Mach.codewordsIn (m : Mach) (blocks : List Nat) : List VaultCodeword := blocks.map fun b => ⟨b, m.markOf b⟩

/-- Codewords of a shard of n bytes: one for its header, the others for its data. -/
def codewordsOf (n : Nat) : Nat := 1 + cdiv n 4096

/-- A block leaves service: it joins the grown bad-block table, and its data is relocated. Where it takes the spare blocks of its die
below 2 %, an EMCY names the die (R314). Blocks are numbered with their die in the remainder by 80, and relocated data keep the number
they were programmed under (log 24). -/
def Mach.retireBlock (m : Mach) (c : Option CtxId) (b : Nat) : Mach :=
  if m.drover.badBlocks.contains b then m
  else
    let m := (({ m with drover := { m.drover with badBlocks := m.drover.badBlocks ++ [b] } }).age [⟨b, .decoded 0 0⟩]).cnt 0xC00A 130 c
    let d := b % 80
    if (m.drover.badBlocks.filter fun x => decide (x % 80 = d)).length = Config.vaultSpare d then m.emcy 0xFF0C d 2 none 130 else m

/-- Blocks have been erased: their counts start again (R315). -/
def Mach.erasedBlocks (m : Mach) (blocks : List Nat) : Mach :=
  let zero := fun (l : Sparse Nat) => blocks.foldl (fun p b => Sparse.set 0 b 0 p) l
  { m with drover := { m.drover with
      erases := blocks.foldl (fun e b => Sparse.modify 0 b (· + 1) e) m.drover.erases, reads := zero m.drover.reads,
      programmed := zero m.drover.programmed } }

/-- Blocks have been programmed: their programme times (R315). -/
def Mach.programmedAt (m : Mach) (blocks : List Nat) : Mach :=
  { m with drover := { m.drover with
      programmed := blocks.foldl (fun p b => Sparse.set 0 b (m.now + 1) p) m.drover.programmed } }

/-- STRIPE_WRITE_COMMIT (R304): the own shard and the parity share are programmed and verified, into some blocks; blocks that failed
meanwhile are retired. `lost`: a program failure beyond the die parity, which fails the slot. -/
def execStripeWriteCommit (c : CtxId) (p : Programmed) (s : State) : Host.Outcome State Fault Refusal :=
  runs s fun m =>
    match m.drover.jobs.find? fun j => decide (j.c = c) with
    | none => m
    | some j =>
      let v := parseVault j.slot.bytes
      let g := m.stripeG c
      if v.op ≠ 0 ∨ m.vaultHot ∨ !m.reachable [130] then m
      else if !p.lost ∧ (j.piece + 1 < g ∨ j.outstanding ≠ 0 ∨ !m.piecesHere c v ∨ !m.mayCommit c j.slot) then m
      else
        let m := p.failed.foldl (fun m b => m.retireBlock (some c) b) ((m.wake [130]).programmedAt p.blocks)
        if p.lost then m.failVault j .uncorrectable 130
        else
          let n := codewordsOf j.data.length
          let own := { m.stripeShard c v j.data j.step with blocks := p.blocks.take n }
          let ps := m.piecesOf c v.generation v.tag
          let par := xorAll (ps.map Piece.data)
          let share := { own with kind := 2, slice := 0, pieceUnits := par.length / 4096, digest := sha3 par, data := par, blocks := p.blocks.drop n }
          let m := (m.putShard own).putShard share
          let m := { m with drover := { m.drover with pieces := m.drover.pieces.filter fun p => !ps.contains p } }
          let m := m.modGen own.fold v.generation own.step fun x =>
            { x with tags := x.tags.filter (fun t => !decide (t = own.tag)) ++ [own.tag], closed := x.closed || decide (own.kind = 1),
                     step := if own.kind = 1 then own.step else x.step }
          let m := m.genSettle own.fold v.generation
          (m.dropVault c j.slot.uid).commitSlot c j.slot

/-- VAULT_STRIPE_TIMEOUT (R304): a peer's pieces have not come in time. -/
def execVaultStripeTimeout (c : CtxId) (s : State) : Host.Outcome State Fault Refusal :=
  runs s fun m =>
    match m.drover.jobs.find? fun j => decide (j.c = c) with
    | none => m
    | some j =>
      let v := parseVault j.slot.bytes
      if v.op ≠ 0 ∨ m.piecesHere c v then m else m.failVault j .timeout (objDetail 0x2B00 6)

/-- VAULT_SPACE_TIMEOUT (R304): the head STRIPE_WRITE has waited for space too long. -/
def execVaultSpaceTimeout (c : CtxId) (s : State) : Host.Outcome State Fault Refusal :=
  runs s fun m =>
    match m.vaultHead c 0 with
    | none => m
    | some q =>
      let v := parseVault q.bytes
      if (m.stripeCheck c v).isSome ∨ m.vaultRoom (m.vaultLen c v) (m.stripeG c) then m
      else ((m.takeHead c .vault).wake v.path).failSlot c q { status := .timeout, detail := objDetail 0x2B00 7 }

/-! ### READ (R305) -/

/-- A codeword of the vault is read (R313): LDPC corrects bits; what it cannot decode is read again with up to eight shifted thresholds,
each a counted retry, then decoded softly; then rebuilt from the die stripe's parity, which retires the block (R314); what even
that does not yield is uncorrectable. -/
def Mach.readCodeword (m : Mach) (c : Option CtxId) (w : VaultCodeword) : Mach :=
  let m := { m with drover := { m.drover with reads := Sparse.modify 0 w.block (· + 1) m.drover.reads } }
  match w.read with
  | .decoded bits retries =>
    let m := m.cnt 0xC007 130 c retries.val
    if bits = 0 then m else (m.cnt 0xC006 130 c (bits - 1)).corrected ⟨0xC006, 130, c, none, none, none⟩
  | .rebuilt => ((m.cnt 0xC007 130 c 8).cnt 0xC008 130 c).retireBlock c w.block
  | .lost => ((m.cnt 0xC007 130 c 8).cnt 0xC008 130 c).cnt 0xC009 130 c

/-- Codewords of the vault are read. -/
def Mach.readCodewords (m : Mach) (c : Option CtxId) (ws : List VaultCodeword) : Mach := ws.foldl (fun m w => m.readCodeword c w) m

/-- Every codeword of a read came back. -/
def allRead (ws : List VaultCodeword) : Bool := ws.all fun w => decide (w.read ≠ .lost)

/-- The shard that a READ names in this vault. -/
def Mach.readShard (m : Mach) (c : CtxId) (v : VaultSlot) : Option Shard :=
  match m.shardAt (m.foldId c) v.generation v.tag false with
  | some s => if s.slice.toNat = v.slice then some s else none
  | none => none

/-- A stored shard is good: its digest is right, its step is that of its generation's CONTROL shard, and the vault can read it
(R305, R314). -/
def Mach.shardGood (m : Mach) (s : Shard) : Bool :=
  decide (m.drover.vault ≠ 3) && decide (sha3 s.data = s.digest) &&
    (match m.shardAt s.fold s.generation.toNat tagControl false with
     | some k => decide (k.step = s.step)
     | none => true)

/-- The peers that a rebuild reads, by member index. -/
def Mach.peers (m : Mach) (c : CtxId) : List Nat :=
  let g := m.stripeG c
  (List.range g).filter fun k => !decide (k = ((m.ownRank c).getD 0) % max 1 g)

/-- What has been fetched from a peer: its shard's header, its parity share's header, the shard, the share. -/
def VaultJob.got (j : VaultJob) (k : Nat) : Bytes := ((j.fetched.find? fun p => decide (p.1 = k)).map Prod.snd).getD []

/-- Bytes to fetch from a peer, as far as the headers fetched so far tell. -/
def fetchTotal (b : Bytes) : Nat :=
  if b.length < 256 then 256 else 256 + headerLen (b.take 128) + headerLen (slice 128 128 b)

/-- Kind and offset of the next part to fetch: kind 0 shard header, 1 share header, 2 shard, 3 share. -/
def fetchNext (b : Bytes) : Nat × Nat × Nat :=
  let n := b.length
  let d := headerLen (b.take 128)
  if n < 128 then (0, 0, 128)
  else if n < 256 then (1, 0, 128)
  else if n < 256 + d then (2, n - 256, min 4096 (256 + d - n))
  else (3, n - 256 - d, min 4096 (fetchTotal b - n))

/-- Every peer's part has been fetched. -/
def Mach.fetchedAll (m : Mach) (j : VaultJob) : Bool := (m.peers j.c).all fun k => decide (fetchTotal (j.got k) ≤ (j.got k).length)

/-- No good copy can be had: counted, and the slot fails (R305, R320). -/
def Mach.readLost (m : Mach) (j : VaultJob) : Mach := (m.cnt 0xC009 130 (some j.c)).failVault j .uncorrectable 0xFFFFFFFF

/-- Fetch the next part from the peers, one packet outstanding at a time (log 20). -/
def Mach.readNext (m : Mach) (c : CtxId) (uid : Nat) : Mach :=
  match m.vaultJob c uid with
  | none => m
  | some j =>
    let v := parseVault j.slot.bytes
    if j.outstanding ≠ 0 then m
    else match (m.peers c).find? fun k => decide ((j.got k).length < fetchTotal (j.got k)) with
      | none => m
      | some k =>
        let dest := stripeRank (m.stripeG c) ((m.ownRank c).getD 0) k
        let p := fetchNext (j.got k)
        match m.rankOf c dest with
        | none => m.readLost j
        | some far =>
          if !m.canReach clsBulk far.1 then m.readLost j
          else
            let h : Hdr := { epoch := far.2, fold := m.foldId c, length := p.2.2, ty := tyGet, cls := clsBulk, ctx := c.val,
                             addr := 2 ^ 43 + Config.vaultAddr [v.generation, v.tag, p.1, p.2.1] % 2 ^ 43, dram := true, dst := far.1 }
            let m := m.modVault c uid fun j => { j with outstanding := 1, piece := k }
            (m.launch (.shard c uid) dest k h []).releaseFlights

/-- Data of a peer's vault have arrived. -/
def Mach.readData (m : Mach) (c : CtxId) (uid : Nat) (b : Bytes) : Mach :=
  match m.vaultJob c uid with
  | none => m
  | some j =>
    let k := j.piece
    let m := m.modVault c uid fun j => { j with
      outstanding := 0, fetched := (k, j.got k ++ b) :: j.fetched.filter fun p => !decide (p.1 = k) }
    m.readNext c uid

/-- What a peer's fetched bytes hold: shard and share, where their headers and digests are right. -/
def fetchedShards (b : Bytes) : Option (Bytes × Bytes) :=
  let h := b.take 128
  let p := slice 128 128 b
  let d := slice 256 (headerLen h) b
  let q := b.drop (256 + headerLen h)
  if headerOk h && headerOk p && decide (sha3 d = (Shard.ofHeader h).digest) && decide (sha3 q = (Shard.ofHeader p).digest) then some (d, q)
  else none

/-- The rebuilt shard of the own member index f (R302): piece k is the XOR of its holder's share with the pieces that the other
members contributed to that share. -/
def Mach.rebuild (m : Mach) (j : VaultJob) (len : Nat) : Option Bytes :=
  let g := m.stripeG j.c
  let f := ((m.ownRank j.c).getD 0) % max 1 g
  let parts := (m.peers j.c).map fun k => (k, fetchedShards (j.got k))
  if parts.any fun p => p.2.isNone then none
  else
    let at_ := fun (k : Nat) => ((parts.find? fun p => decide (p.1 = k)).bind Prod.snd).getD ([], [])
    let piece := fun (k : Nat) =>
      let h := (f + k + 1) % g
      let others := (m.peers j.c).filter fun i => !decide (i = h)
      (xorAll ((at_ h).2 :: others.map fun i => pieceOf (at_ i).1 g ((h + g - i - 1) % g))).take (pieceLen len g)
    some (((List.range (g - 1)).flatMap piece).take len)

/-- READ (R305): the shard of this vault, where every codeword of it can be read, or a rebuild from the stripe group. -/
def execRead (c : CtxId) (s : State) : Host.Outcome State Fault Refusal :=
  runs s fun m =>
    match m.vaultHead c 1 with
    | none => m
    | some q =>
      let v := parseVault q.bytes
      let own := m.readShard c v
      let m := (m.takeHead c .vault).wake v.path
      let job := fun (d : Bytes) => ({ c := c, slot := q, data := d, step := q.step, reads := none, piece := 0, pos := 0,
                                       headerSent := false, outstanding := 0, failed := none, fetched := [] } : VaultJob)
      let add := fun (j : VaultJob) (m : Mach) => { m with drover := { m.drover with jobs := m.drover.jobs ++ [j] } }
      let range := dramRange v.dram v.length
      let mine := match own with
        | some x => decide (some x.rank = m.ownRank c)
        | none => (m.ownRank c).isSome
      if !m.dramInWindow c v.dram v.length then m.failSlot c q { status := .windowViolation, range0 := range }
      else if (own.map fun x => decide (x.data.length ≠ v.length)).getD false then
        m.failSlot c q { status := .badSlot, detail := badSlotDetail 11 0, range0 := range }
      else
      let codewords := m.codewordsIn ((own.map Shard.blocks).getD [])
      let m := m.readCodewords (some c) codewords
      if (own.map m.shardGood).getD false && allRead codewords then add (job ((own.map Shard.data).getD [])) m
      else if !mine then (m.cnt 0xC009 130 (some c)).failSlot c q { status := .uncorrectable, detail := 0xFFFFFFFF, range0 := range }
      else ((add { job [] with pos := 1 } m).cnt 0xC005 130 (some c)).readNext c q.uid

/-- VAULT_READ_COMMIT (R305): the bytes, read or rebuilt, are written to DRAM; once no part of them is held by copy-on-write
the slot commits. -/
def execVaultReadCommit (c : CtxId) (s : State) : Host.Outcome State Fault Refusal :=
  runs s fun m =>
    match m.drover.jobs.find? fun j => decide (j.c = c) with
    | none => m
    | some j =>
      let v := parseVault j.slot.bytes
      let uid := j.slot.uid
      let finish := fun (m : Mach) =>
        if (m.drover.heldWrites.any fun w => decide (w.owner = some (c, uid))) ∨ !m.mayCommit c j.slot then m
        else (m.dropVault c uid).commitSlot c j.slot (dramRange v.dram v.length, noRange)
      if v.op ≠ 1 ∨ !m.reachable v.path then m
      else
      let m := m.wake v.path
      if j.headerSent then finish m
      else if j.pos = 1 ∧ (!m.fetchedAll j ∨ j.outstanding ≠ 0) then m
      else match if j.pos = 1 then m.rebuild j v.length else some j.data with
        | none => m.readLost j
        | some d => match m.dramWrite v.dram d (some c) (some (c, uid)) with
          | (m, some u) => m.failVault j .uncorrectable (dramIsland (u * 64))
          | (m, none) => finish (m.modVault c uid fun j => { j with headerSent := true })

/-- RETIRE_GENERATION (R305, R315): the generation is RETIRED in the catalog. -/
def execRetireGeneration (c : CtxId) (s : State) : Host.Outcome State Fault Refusal :=
  runs s fun m =>
    match m.vaultHead c 2 with
    | none => m
    | some q =>
      let v := parseVault q.bytes
      if !m.mayCommit c q then m
      else
        let m := (m.takeHead c .vault).wake v.path
        if m.vaultProtected then m.failSlot c q { status := .badSlot, detail := badSlotDetail 10 0 }
        else (m.modGen (m.foldId c) v.generation q.step fun g => { g with st := 2 }).commitSlot c q

/-- RETIRED_GENERATION_ERASE (R305, R314, R315): its blocks are erased, those that fail it retired, and a READ_ONLY vault has room
again. -/
def execRetiredGenerationErase (e : GenErase) (s : State) : Host.Outcome State Fault Refusal :=
  runs s fun m =>
    let retired := fun (x : Shard) => decide (x.generation = e.generation) &&
      m.drover.gens.any fun g => decide (g.generation = e.generation) && decide (g.fold = x.fold) && decide (g.st = 2)
    let gone := m.drover.shards.filter retired
    if gone = [] ∨ !m.reachable [130] then m
    else
      let m : Mach := e.failed.foldl (fun (m : Mach) b => m.retireBlock none b)
        (((m.wake [130]).erasedBlocks e.erased).age (e.erased.map fun b => ⟨b, .decoded 0 0⟩))
      let m : Mach := { m with drover := { m.drover with
        shards := m.drover.shards.filter fun x => !retired x,
        freeKib := m.drover.freeKib + (gone.map fun x => shardKib x.data.length).sum } }
      if m.drover.vault = 2 then
        m.setVault (if m.drover.dieFail.toNat = m.drover.dieRebuilt.toNat then 0 else 1)
      else m

/-! ### BULK packets (R301, R303, R305, R312) -/

/-- The member index of a BULK packet's source in this module's stripe group. -/
def Mach.stripePeer (m : Mach) (h : Hdr) : Option (CtxId × Nat) :=
  match m.bulkCtx h with
  | none => none
  | some c => match m.ownRank c, (m.ctxFold c).bind fun f => f.rankAt h.src with
    | some own, some r =>
      let g := max 1 (m.stripeG c)
      if own / g = r / g ∧ own ≠ r then some (c, r % g) else none
    | _, _ => none

/-- The pool that lends the Drover a buffer: the lowest of pools 6 to 9 that has one (R114; which of them is not given, log 76). -/
def Mach.droverPool (m : Mach) : Option PoolId := [(6 : PoolId), 7, 8, 9].find? fun p => m.bpmFits p rqDrover 1

/-- Take a buffer in which a piece is combined (R303). -/
def Mach.pieceBuf (m : Mach) : Mach × Option (PoolId × Nat) :=
  match m.droverPool with
  | none => (m, none)
  | some p => match (m.bpmReserve p rqDrover 1).bpmAlloc p rqDrover 1 with
    | (m, some b) => (m, some (p, b))
    | (m, none) => (m, none)

/-- Return the buffer of a piece. -/
def Mach.freePiece (m : Mach) (p : Piece) : Mach :=
  match p.buf with
  | some (pool, b) => m.bpmFree pool b
  | none => m

/-- A packet is the header of a piece. -/
def opensPiece (h : Hdr) : Bool := bit h.addr 43 && decide (bits h.addr 38 0 = pieceHdrOff)

/-- Take in a packet of a piece (R303): its header opens it, in a buffer; its data follow in order; once they are whole the buffer is
free. -/
def Mach.intake (m : Mach) (h : Hdr) (k : Nat) (b : Bytes) : Mach :=
  let off := bits h.addr 38 0
  let isOpen := fun (p : Piece) => decide (p.sender = k) && !p.complete
  if opensPiece h then
    let m := (m.drover.pieces.filter isOpen).foldl Mach.freePiece m
    let empty := decide ((Shard.ofHeader b).pieceUnits = 0)
    let (m, buf) := if empty then (m, none) else m.pieceBuf
    ({ m with drover := { m.drover with
      pieces := (m.drover.pieces.filter fun p => !isOpen p) ++ [(⟨k, b, [], empty, buf⟩ : Piece)] } }).ack h 0
  else match m.drover.pieces.find? isOpen with
    | none => m.bulkReject h
    | some p =>
      let total := (Shard.ofHeader p.hdr).pieceUnits * 4096
      if total < off + b.length ∨ p.data.length < off then m.bulkReject h
      else
        let data := p.data.take off ++ b ++ p.data.drop (off + b.length)
        let whole := decide (data.length = total)
        let m := if whole then m.freePiece p else m
        let q := { p with data := data, complete := whole, buf := if whole then none else p.buf }
        ({ m with drover := { m.drover with pieces := m.drover.pieces.map fun x => if x = p then q else x } }).ack h 0

/-- The Drover can take a BULK packet: it, and the DRAM the packet names, can be reached, and a piece that the packet opens has a
buffer. -/
def Mach.bulkReady (m : Mach) (ty : Nat) (h : Hdr) : Bool :=
  decide (h.cls = clsBulk) && decide (h.ty = ty) && m.reachable (130 :: 126 :: if bit h.addr 43 then [] else dramPath h.addr h.length) &&
    (decide (ty ≠ tyPut) || !opensPiece h || m.droverPool.isSome)

/-- Wake what a BULK packet reaches. -/
def Mach.bulkWake (m : Mach) (h : Hdr) : Mach := m.wake (130 :: 126 :: if bit h.addr 43 then [] else dramPath h.addr h.length)

/-- BULK_PUT_RECEIVE (R301, R303, R312). -/
def execBulkPutReceive (s : State) : Host.Outcome State Fault Refusal :=
  runs s fun m =>
    if !m.works then m
    else match m.takeLocal (m.bulkReady tyPut) with
      | none => m
      | some (p, m) =>
        let h := hdrOf p
        let m := m.bulkWake h
        let t : Fin 2 := if m.inSlot 3 h.addr h.length then 1 else 0
        if bit h.addr 43 then
          match m.stripePeer h with
          | some (_, k) => if k = bits h.addr 42 39 then m.intake h k p.payload else m.bulkReject h
          | none => m.bulkReject h
        else if m.importSlot h then m.bulkStore h p.payload id
        else if m.inSlot 2 h.addr h.length ∨ m.inSlot 3 h.addr h.length then
          match m.buddySource h with
          | some c => m.bulkStore h p.payload fun m => m.buddyHeader c t h
          | none => m.bulkReject h
        else m.bulkReject h

/-- Answer a BULK GET with bytes that the Drover read from DRAM, or could not read. -/
def bulkServe (h : Hdr) : Mach × Except Nat Bytes → Mach
  | (m, .error _) => m.ack h Status.uncorrectable.code
  | (m, .ok b) => m.getRsp h b

/-- Blocks of the codewords that a part of a shard lies in: its header's, or those of some of its data. -/
def Shard.touched (s : Shard) (header : Bool) (off n : Nat) : List Nat :=
  if header then s.blocks.take 1 else (s.blocks.drop (1 + off / 4096)).take (cdiv (off % 4096 + n) 4096)

/-- Bytes of this vault that a peer asks for: shard or share, header or data, where the codewords they lie in can be read (R305,
R313). -/
def Mach.vaultServe (m : Mach) (h : Hdr) (c : CtxId) : Mach :=
  match Config.vaultFields (h.addr % 2 ^ 43) with
  | [gen, tag, kind, off] =>
    match m.shardAt (m.foldId c) gen tag (decide (kind = 1) || decide (kind = 3)) with
    | none => m.ack h Status.uncorrectable.code
    | some s =>
      let ws := m.codewordsIn (s.touched (decide (kind < 2)) off h.length)
      let m := m.readCodewords (some c) ws
      if !m.shardGood s ∨ !allRead ws then m.ack h Status.uncorrectable.code
      else m.getRsp h (slice off h.length (if kind < 2 then s.header else s.data))
  | _ => m.bulkReject h

/-- BULK_GET_RECEIVE (R305, R308, R312): a STORAGE appliance reads a settled local slot; a spare of the fold reads a buddy slot;
a peer's Drover reads the vault. -/
def execBulkGetReceive (s : State) : Host.Outcome State Fault Refusal :=
  runs s fun m =>
    if !m.works then m
    else match m.takeLocal (m.bulkReady tyGet) with
      | none => m
      | some (p, m) =>
        let h := hdrOf p
        let m := m.bulkWake h
        let settled := fun (k : Fin 2) => m.inSlot k.val h.addr h.length &&
          (decide ((m.drover.slots[k]).st = .buddied) || decide ((m.drover.slots[k]).st = .committed))
        let member : Bool := match m.bulkCtx h with
          | some c => ((m.ctxFold c).bind fun f => f.rankAt h.src).isSome
          | none => false
        if bit h.addr 43 then
          match m.stripePeer h with
          | some (c, _) => m.vaultServe h c
          | none => m.bulkReject h
        else if m.fromStorage h && (settled 0 || settled 1) then
          let k : Fin 2 := if settled 0 then 0 else 1
          bulkServe h (m.snapFetchAll k h.addr h.length (m.bulkCtx h))
        else if member ∧ (m.inSlot 2 h.addr h.length ∨ m.inSlot 3 h.addr h.length) then
          bulkServe h (m.fetchDram h.addr h.length (m.bulkCtx h))
        else m.bulkReject h

/-! ### Dies and blocks (R314 to R316) -/

/-- Die stripe of a die: 16 dies, one on each channel (R312; the numbering is the model's, log 24). -/
def dieStripe (d : Nat) : Nat := d / 16

/-- VAULT_DIE_FAILURE (R314): a rebuild starts; a second die of a stripe that is not rebuilt loses the vault. -/
def execVaultDieFailure (die : Fin 80) (s : State) : Host.Outcome State Fault Refusal :=
  runs s fun m =>
    if m.drover.dieFail.getLsbD die.val ∨ m.grade = .n then m
    else
      let lost := (List.range 80).any fun d => decide (dieStripe d = dieStripe die.val) && m.drover.dieFail.getLsbD d &&
        !m.drover.dieRebuilt.getLsbD d
      let m := { m with drover := { m.drover with
        dieFail := m.drover.dieFail ||| BitVec.ofNat 80 (2 ^ die.val), rebuildPermille := 0 } }
      if m.drover.vault = 3 then m else m.setVault (if lost then 3 else 1)

/-- VAULT_REBUILD_DONE (R314). -/
def execVaultRebuildDone (s : State) : Host.Outcome State Fault Refusal :=
  runs s fun m =>
    if m.drover.vault ≠ 1 then m
    else ({ m with drover := { m.drover with dieRebuilt := m.drover.dieFail, rebuildPermille := 1000 } }).setVault 0

/-- VAULT_REFRESH (R315, R316): a block, read as its codewords have come to read, is relocated and erased, its read count starts again; no
shard changes. One that needed die parity is retired (R314); data that are lost stay lost. -/
def execVaultRefresh (r : BlockRefresh) (s : State) : Host.Outcome State Fault Refusal :=
  runs s fun m =>
    if m.grade = .n ∨ m.drover.badBlocks.contains r.block ∨ !m.reachable [130] then m
    else
      let m := (m.wake [130]).age r.aged
      let w : VaultCodeword := ⟨r.block, m.markOf r.block⟩
      let m := (m.readCodeword none w).erasedBlocks [r.block]
      if w.read = .lost then m else m.age [⟨r.block, .decoded 0 0⟩]

end Sys2Proof.Machine
end

