-- ==== Sys2Proof/Machine/Answers.lean ====
section
/-! DEFINITION. Answers to fabric packets, and their resends (R101, R103, R104, R138, R260): the flight they match tells who
waits for them. -/

namespace Sys2Proof.Machine

open Sys2Proof

/-- The status of R156 that a code spells. -/
def statusOf (n : Nat) : Status :=
  ([Status.engineAbsent, .badSlot, .badFormat, .badTd, .indexOutOfRange, .windowViolation, .quotaWaitTimeout, .tokenOverflow,
    .tokenDeadlock, .collectiveMismatch, .levelMismatch, .linkLost, .staleRole, .tallyMismatch, .uncorrectable, .timeout].find?
    fun s => decide (s.code = n)).getD .linkLost

/-- A packet of a slot's shard was refused: the STRIPE_WRITE fails with the peer's status, a READ has lost that copy. A peer's
island is not told: it is a free value (log 18). -/
def Mach.shardRefused (m : Mach) (c : CtxId) (uid : Nat) (rank status : Nat) : Mach :=
  match m.vaultJob c uid with
  | none => m
  | some j =>
    if (parseVault j.slot.bytes).op = 1 then m.readLost j
    else
      let d := if status = Status.windowViolation.code then 1
        else if status = Status.uncorrectable.code then Config.freeWord m.freeCtr % 2 ^ 32
        else rank
      (m.failVault j (statusOf status) d).drew

/-- An ACK has been matched with its flight, which has landed. -/
def Mach.ackTo (m : Mach) (f : Flight) (status : Nat) : Mach :=
  match f.owner with
  | .slot c uid => m.slotAck c uid status
  | .orphan _ => m
  | .buddy c =>
    if status = 0 then m.streamAck c 0 f.pkt.payload.length else m.buddyLost c
  | .shard c uid => if status = 0 then m.stripeAck c uid else m.shardRefused c uid f.rank status

/-- The engine that waits for the answer to a packet. -/
def FlightOwner.engine : FlightOwner → List IslandId
  | .slot _ _ => [129, 126]
  | .orphan move => [if move then 129 else 130, 126]
  | .buddy _ | .shard _ _ => [130, 126]

/-- The window of a MOVE packet's destination hears the answer (R104). -/
def Mach.heard (m : Mach) (f : Flight) (h : Hdr) : Mach :=
  if f.byMove then m.cwndAnswer h.src h.cmEcho else m

/-- ACK_RECEIVE (R102, R104, R138, R301): the oldest delivered ACK completes the packet whose tag it echoes. A positive ACK of a
GET, which nobody sends, and an ACK that matches nothing are dropped. -/
def execAckReceive (s : State) : Host.Outcome State Fault Refusal :=
  runs s fun m =>
    match m.takeLocal fun h => decide (h.ty = tyAck) with
    | none => m
    | some (p, m) =>
      let h := hdrOf p
      match m.flightOf h with
      | none => m
      | some f =>
        if h.status = 0 ∧ (hdrOf f.pkt).ty = tyGet then m
        else if !m.reachable f.owner.engine then s.m
        else ((((m.wake f.owner.engine).land f.tag).heard f h).ackTo f h.status).releaseFlights

/-- GET_RSP_RECEIVE (R101, R104, R308, R305): the oldest delivered GET_RSP brings the bytes its GET asked for. -/
def execGetRspReceive (s : State) : Host.Outcome State Fault Refusal :=
  runs s fun m =>
    match m.takeLocal fun h => decide (h.ty = tyGetRsp) with
    | none => m
    | some (p, m) =>
      let h := hdrOf p
      match m.flightOf h with
      | none => m
      | some f =>
        if (hdrOf f.pkt).ty ≠ tyGet ∨ (hdrOf f.pkt).length ≠ h.length ∨ f.answer.isSome then m
        else if !m.reachable f.owner.engine then s.m
        else
          let m := (m.wake f.owner.engine).heard f h
          let m := match f.owner with
            | .slot c uid => m.slotData c uid f p.payload
            | .orphan _ => m.land f.tag
            | .buddy c => (m.land f.tag).restoreData c p.payload
            | .shard c uid => (m.land f.tag).readData c uid p.payload
          m.releaseFlights

/-- Nobody answers any more: the slot fails with TIMEOUT, or the stream, the restore or the copy is lost. -/
def Mach.giveUp (m : Mach) (f : Flight) (st : Status) (detail : Nat) : Mach :=
  let m := m.land f.tag
  match f.owner with
  | .slot c uid => match m.moveJob c uid with
    | some j => m.failMove j st.code detail
    | none => m
  | .orphan _ => m
  | .buddy c => m.buddyLost c
  | .shard c uid => match m.vaultJob c uid with
    | some j => if (parseVault j.slot.bytes).op = 1 then m.readLost j else m.failVault j st detail
    | none => m

/-- MOVE_RETRY_TIMEOUT (R103, R256, R260): the packet of this tag is sent again; after move_retry_limit resends its slot faults
with TIMEOUT, and where no route is left with LINK_LOST. While the route is REBUILDING resends do not count. -/
def execMoveRetryTimeout (tag : BitVec 16) (s : State) : Host.Outcome State Fault Refusal :=
  runs s fun m =>
    match m.mv.flights.find? fun f => decide (f.tag = tag) && !f.held && f.answer.isNone with
    | none => m
    | some f =>
      m.over f.owner.engine fun m =>
        let h := hdrOf f.pkt
        if !m.canReach h.cls h.dst then (m.giveUp f .linkLost f.rank).releaseFlights
        else if m.num 0x2983 2 ≤ f.resends ∧ !m.net.rebuilding then (m.giveUp f .timeout (objDetail 0x2983 2)).releaseFlights
        else m.resendFlight f

end Sys2Proof.Machine
end

