-- ==== Sys2Proof/Machine/Audit.lean ====
section
/-! DEFINITION. The AUDIT engine (R127, R332 to R334) and the CONF operations that commit at dispatch (R128). -/

namespace Sys2Proof.Machine

open Sys2Proof

/-! ### Regions (R127, R334) -/

/-- The region of a slot is checked against the window: not for DIGEST_WORDS, and not where no byte is read. -/
def Mach.auditWindow (m : Mach) (c : CtxId) (a : AuditSlot) : Bool :=
  if a.op = 0 ∨ a.length = 0 then true
  else if a.dram then m.dramInWindow c a.addr a.length
  else m.spadInWindow c a.addr a.length

/-- The region's bytes, with what ECC corrects, or the island of an uncorrectable error in them (R80, R85). -/
def Mach.auditRead (m : Mach) (c : CtxId) (a : AuditSlot) : Mach × Except Nat Bytes :=
  if a.dram then m.fetchDram a.addr a.length (some c) else m.fetchSpad a.addr a.length (some c)

/-- The islands a slot works in: the AUDIT engine, and the way to its region or to the words it digests (R10, R14). -/
def AuditSlot.path (a : AuditSlot) : List IslandId :=
  131 :: if a.op = 0 then [126, 127] else if a.dram then dramPath a.addr a.length else spadPath a.addr a.length

/-! ### What reads of counters return (R362) -/

/-- A counter's value as it is read: the frozen sample while FROZEN (R361). -/
def Mach.counterValue (m : Mach) (k : CounterId) : Nat :=
  if m.netState = .frozen then (m.counters[k]).sample.toNat else (m.counters[k]).value.toNat

/-- The number of a counter's owner: a context, or 0xFF for the operator. -/
def Counter.ownedBy (k : Counter) (c : CtxId) : Bool := decide (k.owner.toNat = c.val)

/-- Slots that have started and what they come to. -/
def Mach.auditStart (m : Mach) (c : CtxId) (q : QSlot) : Mach :=
  let a := parseAudit q.bytes
  let m := (m.takeHead c .audit).wake a.path
  if !m.auditWindow c a then m.failSlot c q { status := .windowViolation }
  else
    let job := fun (d : Bytes) (m : Mach) => { m with audits := m.audits ++ [⟨c, q, d⟩] }
    match a.op with
    | 0 => job (sha3 q.words) m
    | 1 =>
      match m.auditRead c a with
      | (m, .error i) => m.failSlot c q { status := .uncorrectable, detail := i, island := i }
      | (m, .ok b) => job (sha3 ((if a.withWords then sha3 q.words else []) ++ b)) m
    | _ => job [] m

/-- An AUDIT slot of one op starts: one per context at a time (R334). -/
def auditRow (op : Nat) (c : CtxId) (s : State) : Host.Outcome State Fault Refusal :=
  runs s fun m =>
    match m.startable c .audit with
    | none => m
    | some q =>
      if (parseAudit q.bytes).op ≠ op ∨ m.audits.any (fun j => decide (j.c = c)) ∨ !m.works ∨ !m.reachable (parseAudit q.bytes).path then m
      else m.auditStart c q

/-- DIGEST_WORDS (R332, R333). -/
def execDigestWords (c : CtxId) (s : State) : Host.Outcome State Fault Refusal := auditRow 0 c s

/-- DIGEST_REGION (R333, R334). -/
def execDigestRegion (c : CtxId) (s : State) : Host.Outcome State Fault Refusal := auditRow 1 c s

/-- SNAP_COUNTERS (R127, R333): the 256 counters go to scratchpad when the slot commits. -/
def execSnapCounters (c : CtxId) (s : State) : Host.Outcome State Fault Refusal := auditRow 2 c s

/-- Remove a job. -/
def Mach.dropAudit (m : Mach) (c : CtxId) (uid : Nat) : Mach :=
  { m with audits := m.audits.filter fun j => !decide (j.c = c ∧ j.slot.uid = uid) }

/-- A started slot stops: what SNAP_COUNTERS would have written is undefined (R150). -/
def Mach.stopAudit (m : Mach) (j : AuditJob) : Mach :=
  let a := parseAudit j.slot.bytes
  let m := m.dropAudit j.c j.slot.uid
  if a.op = 2 then m.spadUndefine a.addr a.length else m

/-- Is a counter's value shown to context c (R362): its own, or one that counter_public shows to all? -/
def Mach.counterShown (m : Mach) (k : CounterId) (c : CtxId) : Bool :=
  (m.counters[k]).ownedBy c || bit (leNat (m.obj 0x2D00 6).toBytes) k.val

/-- The 2,048 bytes of counters as context c may see them, sampled in one cycle (R127, R362). -/
def counterBlock (value : CounterId → Nat) (shown : CounterId → Bool) : Bytes :=
  (fins 255).flatMap fun k => natLe 8 (if shown k then value k else 0)

/-- SNAP_COUNTERS samples live values (log 19). -/
def Mach.snapBlock (m : Mach) (c : CtxId) : Bytes :=
  counterBlock (fun k => (m.counters[k]).value.toNat) fun k => m.counterShown k c

/-- AUDIT_COMMIT (R147, R154, R333): the digest goes out in a DIGEST record, or the counters are written. -/
def execAuditCommit (c : CtxId) (s : State) : Host.Outcome State Fault Refusal :=
  runs s fun m =>
    match m.audits.find? fun j => decide (j.c = c) with
    | none => m
    | some j =>
      let a := parseAudit j.slot.bytes
      if !m.mayCommit c j.slot ∨ !m.reachable a.path then m
      else
        let m := (m.dropAudit c j.slot.uid).wake a.path
        if a.op = 2 then
          match m.spadStore a.addr (m.snapBlock c) (some c) with
          | (m, some i) => m.failSlot c j.slot { status := .uncorrectable, detail := i, island := i }
          | (m, none) => m.commitSlot c j.slot
        else
          let m := (m.cnt 0xD000 131 (some c)).cnt 0xD001 131 (some c) (if a.op = 1 then a.length else j.slot.words.length)
          m.commitSlot c j.slot (noRange, noRange)
            (some { kind := .digest, status := 0x12, wordSeq := 0, userTag := a.tag, payload := j.digest })

/-! ### CONF operations that commit at dispatch (R128) -/

/-- The op of the CONF slot of a context's head word, if it has one. -/
def Mach.headConf (m : Mach) (c : CtxId) : Option Nat :=
  match (m.ctxs[c]).cmdQ with
  | [] => none
  | send :: _ => match frame send with
    | none => none
    | some (b, _) => ((wordOf b).slot 7).map fun k => (parseConf k).op

/-- SET_SEED (R128, R142): the head word carries it, and it takes effect and commits when the word is dispatched. -/
def execSetSeed (c : CtxId) (s : State) : Host.Outcome State Fault Refusal :=
  runs s fun m => if m.headConf c = some 2 then m.sequence c else m

/-- SET_STEP (R128, R142). -/
def execSetStep (c : CtxId) (s : State) : Host.Outcome State Fault Refusal :=
  runs s fun m => if m.headConf c = some 3 then m.sequence c else m

end Sys2Proof.Machine
end

