-- ==== Sys2Proof/Machine/Routes.lean ====
section
/-! DEFINITION. Building the route table (R255, R257 to R259): the plan region as a graph of modules, the next hops of dimension
order and of the breadth-first tree, the channel dependency graph, the own rows and turn masks, and the pairs left without a
route. -/

namespace Sys2Proof.Machine

open Sys2Proof

/-! ### The plan region (R257, R272) -/

/-- Coordinate of axis 0 x, 1 y, 2 z. -/
def axis (p : Coord) : Nat → Nat
  | 0 => Coord.x p
  | 1 => Coord.y p
  | _ => Coord.z p

/-- Coordinates with one axis replaced. -/
def setAxis (p : Coord) (a v : Nat) : Coord :=
  Coord.mk3 (if a = 0 then v else Coord.x p) (if a = 1 then v else Coord.y p) (if a = 2 then v else Coord.z p)

/-- Positions of a box, in ascending (z, y, x). -/
def boxOf (lo hi : Coord) : List Coord :=
  let r := fun a => (List.range (axis hi a + 1 - axis lo a)).map (axis lo a + ·)
  (r 2).flatMap fun z => (r 1).flatMap fun y => (r 0).map fun x => Coord.mk3 x y z

/-- The plan's axis a is wrapped and longer than 1. -/
def Net.wraps (n : Net) (a : Nat) : Bool := bit n.wrap.toNat a && decide (axis n.lo a < axis n.hi a)

/-- The next position in direction d (R251: 0 +X, 1 −X, 2 +Y, …), and whether the step crosses the dateline. -/
def Net.step (n : Net) (p : Coord) (d : Nat) : Option (Coord × Bool) :=
  let a := d / 2
  let v := axis p a
  if d % 2 = 0 then
    if v < axis n.hi a then some (setAxis p a (v + 1), false)
    else if n.wraps a then some (setAxis p a (axis n.lo a), true) else none
  else if axis n.lo a < v then some (setAxis p a (v - 1), false)
  else if n.wraps a then some (setAxis p a (axis n.hi a), true) else none

/-! ### Bundles of the plan -/

/-- The own GRID bundle of a direction: the lowest. -/
def Net.ownGrid (n : Net) (d : Nat) : Option BundleId :=
  ((List.range 16).find? fun b => decide ((n.bundles[(Fin.ofNat 16 b : BundleId)]).role = 1) &&
    decide ((n.bundles[(Fin.ofNat 16 b : BundleId)]).dir = d)).map fun b => Fin.ofNat 16 b

/-- A bundle state lets packets through. -/
def BundleSt.open (s : BundleSt) : Bool := decide (s = .up) || decide (s = .degraded)

/-- A bundle as its module reports it (R260). -/
def Bundle.report (k : Bundle) : BundleRep := ⟨k.st, k.role, k.dir, k.far, k.selvedge⟩

/-- The link map (R259): the own bundles, and another module's as its LINK_EVENT last reported them; none before it has. -/
def Net.mapAt (n : Net) (p : Coord) : List BundleRep :=
  if p = n.own then n.bundles.toList.map Bundle.report else Sparse.get [] p.toNat n.linkMap

/-- The bundles of a module with their numbers. -/
def Net.numbered (n : Net) (p : Coord) : List (BundleRep × Nat) := (n.mapAt p).zip (List.range 16)

/-- Number and report of a module's GRID bundle in a direction: the lowest. -/
def Net.gridAt (n : Net) (p : Coord) (d : Nat) : Option (BundleRep × Nat) :=
  (n.numbered p).find? fun e => decide (e.1.role = 1) && decide (e.1.dir = d)

/-! ### Hops -/

/-- A hop: direction (6 for a tie or storage bundle), bundle, out_sub, the module it reaches. -/
structure Hop where
  dir : Nat
  bundle : Nat
  sub : Nat
  next : Coord
  deriving DecidableEq, Repr

/-- The way round an axis from v to w: 0 up, 1 down. The shorter way round a wrapped axis, up where both are equal (log 26); flat
packets cross no dateline and go straight. -/
def Net.wayRound (n : Net) (a s v w : Nat) : Nat :=
  let len := axis n.hi a + 1 - axis n.lo a
  let up := if v < w then w - v else w + len - v
  if n.wraps a && decide (s ≠ 2) then (if 2 * up ≤ len then 0 else 1) else if v < w then 0 else 1

/-- Direction of dimension order: x, then y, then z. -/
def Net.dimDir (n : Net) (p : Coord) (s : Nat) (dest : Coord) : Option Nat :=
  ([0, 1, 2].find? fun a => decide (axis p a ≠ axis dest a)).map fun a => 2 * a + n.wayRound a s (axis p a) (axis dest a)

/-- May a packet that moves through p in direction d toward dest have crossed that axis's dateline before p? It has, if from the
dateline this is its way and it need not cross again. A row of the table knows a packet by its sub alone (R255, log 26). -/
def Net.afterDateline (n : Net) (p dest : Coord) (d : Nat) : Bool :=
  let a := d / 2
  let v := axis p a
  let w := axis dest a
  n.wraps a && (if d % 2 = 0 then decide (v < w) && decide (n.wayRound a 0 (axis n.hi a) w = 0)
    else decide (w < v) && decide (n.wayRound a 0 (axis n.lo a) w = 1))

/-- A hop in a direction, for a packet that arrives with sub s (R257): flat packets cross no dateline; a crossing makes hi; a hi
packet stays hi on the axis whose dateline it crossed and is lo after a turn. A hi packet crosses a dateline only after a turn
onto its axis, on the way of dimension order, so never the same one twice. The bundle must be open, and a Selvedge bundle leads
only to its far end (R259). -/
def Net.hop (n : Net) (p : Coord) (s : Nat) (dest : Coord) (d : Nat) : Option Hop :=
  match n.step p d, n.gridAt p d with
  | some (q, crosses), some (r, b) =>
    let out := if s = 2 then 2 else if crosses then 1 else if s = 1 ∧ n.afterDateline p dest d then 1 else 0
    if !(BundleSt.open r.st) ∨ (s = 2 ∧ crosses) ∨ (s = 1 ∧ crosses ∧ n.dimDir p s dest ≠ some d) ∨ (r.selvedge ∧ q ≠ dest) then none
    else some ⟨d, b, out, q⟩
  | _, _ => none

/-- The SPARE_TIE or STORAGE bundle of a module whose far end is the destination (R251): STORAGE carries flat packets alone. -/
def Net.tie (n : Net) (p : Coord) (s : Nat) (dest : Coord) : Option Hop :=
  ((n.numbered p).find? fun e => decide (e.1.far = dest) && BundleSt.open e.1.st &&
    (decide (e.1.role = 2) || (decide (e.1.role = 3) && decide (s = 2)))).map fun e => ⟨6, e.2, if s = 2 then 2 else 0, dest⟩

/-- The hops of a module toward a destination, in the order of the tree's neighbours: +X, −X, +Y, −Y, +Z, −Z, and last the bundle
that leads to it alone (R259). -/
def Net.hops (n : Net) (p : Coord) (s : Nat) (dest : Coord) : List Hop :=
  (List.range 6).filterMap (n.hop p s dest) ++ (n.tie p s dest).toList

/-- Distances of the breadth-first tree rooted at a destination: layer after layer. -/
def Net.layers (n : Net) (s : Nat) (dest : Coord) : Nat → List Coord → List (Coord × Nat) → Nat → List (Coord × Nat)
  | 0, _, seen, _ => seen
  | f + 1, frontier, seen, k =>
    let new := ((boxOf n.lo n.hi).filter fun p => !(seen.any fun e => decide (e.1 = p))).filter fun p =>
      (n.hops p s dest).any fun h => frontier.contains h.next
    if new = [] then seen else Net.layers n s dest f new (seen ++ new.map fun p => (p, k + 1)) (k + 1)

/-- Distances to a destination. -/
def Net.dist (n : Net) (s : Nat) (dest : Coord) : List (Coord × Nat) :=
  n.layers s dest (boxOf n.lo n.hi).length [dest] [(dest, 0)] 0

/-- Distance of a position, where it has one. -/
def distOf (l : List (Coord × Nat)) (p : Coord) : Option Nat := (l.find? fun e => decide (e.1 = p)).map Prod.snd

/-! ### The channel dependency graph (R259) -/

/-- The node of a module, output bundle and sub. -/
def nodeOf (p : Coord) (h : Hop) : Nat := (p.toNat * 16 + h.bundle) * 4 + h.sub

/-- Can a node be reached from a set of nodes? -/
def reaches (g : List (Nat × Nat)) (target : Nat) : Nat → List Nat → List Nat → Bool
  | 0, front, _ => front.contains target
  | f + 1, front, seen =>
    if front.contains target then true
    else
      let next := ((g.filter fun e => front.contains e.1).map Prod.snd).dedup.filter fun k => !seen.contains k
      if next = [] then false else reaches g target f next (next ++ seen)

/-- Edges close a cycle in a graph that contains them. -/
def closesCycle (g es : List (Nat × Nat)) : Bool := es.any fun e => reaches g e.1 (g.length + 1) [e.2] [e.2]

/-- A graph has no cycle. -/
def acyclic (g : List (Nat × Nat)) : Bool := !closesCycle g g

/-- An entry of the table of the whole region: module, incoming sub, hop. -/
structure Ent where
  at_ : Coord
  sub : Nat
  hop : Hop
  deriving DecidableEq, Repr

/-- Dependencies that a new entry for a destination brings: of the packets that arrive by it, and on the entry behind it. -/
def newEdges (es : List Ent) (p : Coord) (s : Nat) (h : Hop) : List (Nat × Nat) :=
  ((es.filter fun e => decide (e.hop.next = p) && decide (e.hop.sub = s)).map fun e => (nodeOf e.at_ e.hop, nodeOf p h)) ++
    ((es.filter fun e => decide (e.at_ = h.next) && decide (e.sub = h.sub)).map fun e => (nodeOf p h, nodeOf e.at_ e.hop))

/-- A table under construction, with the modules that the destination leaves UNREACHABLE for lo packets. -/
structure Table where
  graph : List (Nat × Nat)
  ents : List Ent
  lost : List Coord
  deriving DecidableEq, Repr

/-- Add the entry of one module and sub for one destination: the hop of dimension order, or else the first hop of the tree, that
closes no cycle (R259). -/
def Net.addEntry (n : Net) (dest : Coord) (dist : List (Coord × Nat)) (p : Coord) (s : Nat) (t : Table) : Table :=
  if p = dest then t
  else
    let ok := fun (h : Hop) =>
      let es := newEdges t.ents p s h
      !closesCycle (es ++ t.graph) es
    let dim := (n.dimDir p s dest).bind fun d => (n.hop p s dest d).filter ok
    let tree := (n.hops p s dest).find? fun h => match distOf dist h.next, distOf dist p with
      | some a, some b => decide (a + 1 = b) && ok h
      | _, _ => false
    match dim.or tree with
    | none => if s = 0 then { t with lost := p :: t.lost } else t
    | some h => { t with graph := newEdges t.ents p s h ++ t.graph, ents := ⟨p, s, h⟩ :: t.ents }

/-- The entries of one destination: module by module, and for each the three incoming subs. -/
def Net.buildDest (n : Net) (g : List (Nat × Nat)) (dest : Coord) : Table :=
  let dists := [0, 1, 2].map fun s => (s, n.dist s dest)
  (boxOf n.lo n.hi).foldl (fun t p => dists.foldl (fun t e => n.addEntry dest e.2 p e.1 t) t) ⟨g, [], []⟩

/-- The module's own rows and turns in a bank. -/
structure Rows where
  graph : List (Nat × Nat)
  routes : Sparse (BitVec 8)
  turns : Sparse (BitVec 16)
  deriving DecidableEq, Repr

/-- Index of a turn mask: bank, input port (16 for injection), incoming and outgoing sub (R258). -/
def turnIndex (bank : Bool) (port sub out : Nat) : Nat := ((b2n bank * 17 + port) * 3 + sub) * 3 + out

/-- Install the own entries of one destination: the row, and the moves that packets on it make. -/
def Net.installDest (n : Net) (bank : Bool) (dest : Coord) (es : List Ent) (r : Rows) : Rows :=
  (es.filter fun e => decide (e.at_ = n.own)).foldl (fun r e =>
    let v : BitVec 8 := BitVec.ofNat 8 (place e.hop.bundle 7 4 + place e.hop.sub 3 2)
    let ports := (if e.sub ≠ 1 then [16] else []) ++
      (es.filter fun u => decide (u.hop.next = n.own) && decide (u.hop.sub = e.sub)).filterMap fun u =>
        (n.ownGrid (if u.hop.dir % 2 = 0 then u.hop.dir + 1 else u.hop.dir - 1)).map Fin.val
    let turn := fun (t : Sparse (BitVec 16)) p =>
      Sparse.modify 0 (turnIndex bank p e.sub e.hop.sub) (fun w => w ||| BitVec.ofNat 16 (2 ^ e.hop.bundle)) t
    { r with routes := Sparse.set 0x0C (entryIndex bank e.sub dest) v r.routes, turns := ports.foldl turn r.turns }) r

/-- Build the next generation into a bank: the bank's old rows and turns go (R259). -/
def Net.build (n : Net) (bank : Bool) : Rows :=
  let other := fun (k half : Nat) => decide (half ≤ k) != bank
  let r : Rows := ⟨[], n.routes.filter fun e => other e.1 (3 * 262144), n.turns.filter fun e => other e.1 153⟩
  (boxOf n.lo n.hi).foldl (fun r dest =>
    let t := n.buildDest r.graph dest
    n.installDest bank dest t.ents { r with graph := t.graph }) r

/-- Ordered pairs of modules, from and to, that the procedure on the present map leaves without a route (R259, R269). -/
def Net.lostPairs (n : Net) : List (Coord × Coord) :=
  ((boxOf n.lo n.hi).foldl (fun (r : List (Nat × Nat) × List (Coord × Coord)) dest =>
    let t := n.buildDest r.1 dest
    (t.graph, r.2 ++ t.lost.map fun p => (p, dest))) ([], [])).2

/-- The part of a graph that flat packets use, or that lo and hi packets use. -/
def flatPart (g : List (Nat × Nat)) (flat : Bool) : List (Nat × Nat) := g.filter fun e => decide (e.1 % 4 = 2) == flat

end Sys2Proof.Machine
end

