-- ==== Sys2Proof/Machine/Ports.lean ====
section
/-! DEFINITION. Bundles and folds as the states of links move them (R252, R260, R263, R269): live members, port down, floods,
the tolerance of a fold; credits and the members of a bundle (R248, R253). -/

namespace Sys2Proof.Machine

open Sys2Proof

/-! ### Links, bundles, channels -/

/-- The 36 links. -/
def allLinks : List LinkId := fins 35

/-- The 16 bundles. -/
def allBundles : List BundleId := fins 15

/-- The 8 virtual channels. -/
def allVcs : List VcId := fins 7

/-- The bundle a plan gives a link: the lowest in use that names it (R251). -/
def plannedOf (bs : Vector Bundle 16) (l : LinkId) : Option BundleId :=
  allBundles.find? fun b => decide ((bs[b]).role ≠ 0) && (bs[b]).planned.getLsbD l.val

/-- The island of a link (R14). -/
def linkIsland (l : LinkId) : IslandId := island (92 + l.val / 4)

/-! ### Training frames (R229, R230) -/

/-- Link states' codes (R231). -/
def LinkState.code : LinkState → Nat
  | .disabled => 0 | .detect => 1 | .baseAlign => 2 | .exchange => 3 | .rateStep => 4 | .equalise => 5 | .check => 6
  | .l0 => 7 | .l1 => 8 | .ls => 9 | .retrain => 10 | .held => 11 | .test => 12

/-- The comma of a frame as sent: its most significant bit first. -/
def comma : List Bool := (natBits 32 0xFFFFF000).reverse

/-- The bits of a training frame in the order sent: the comma, then 16 units of header 1, 0 and 16 content bits. -/
def frameBits (content : BitVec 256) : List Bool :=
  comma ++ (List.range 16).flatMap fun u => true :: false :: natBits 16 (bits content.toNat (16 * u + 15) (16 * u))

/-- Unit u of received bits. -/
def frameUnit (bs : List Bool) (u : Nat) : List Bool := (bs.drop (32 + 18 * u)).take 18

/-- The content of received bits, where they are a frame. -/
def frameContent (bs : List Bool) : Option (BitVec 256) :=
  if bs.length = 320 ∧ bs.take 32 = comma ∧ (List.range 16).all fun u => decide ((frameUnit bs u).take 2 = [true, false]) then
    some (BitVec.ofNat 256 ((List.range 16).map fun u => bitsNat ((frameUnit bs u).drop 2) * 2 ^ (16 * u)).sum)
  else none

/-- crc16 of the training content, over bits [239:0]. -/
def contentCrc (n : Nat) : Nat := (crc16 (natBits 240 n)).toNat

/-- Rate codes a module enables on a link: up to link_rate_max. -/
def Mach.rateCap (m : Mach) (l : LinkId) : Nat := 2 ^ (min 3 (m.num (0x2600 + l.val) 3) + 1) - 1

/-- The training content the module sends on a lane of a link. -/
def Mach.ownContent (m : Mach) (l : LinkId) (lane : Fin 4) : BitVec 256 :=
  let k := m.links[l]
  let b : Bundle := match plannedOf m.net.bundles l with
    | some b => m.net.bundles[b]
    | none => Bundle.init
  let n := place Config.moduleSerial.toNat 239 176 + place l.val 175 170 + place b.tag 169 162 + place (m.num 0x2630 1) 161 154 +
    place (m.num 0x2C00 1) 153 146 + place m.net.own.toNat 145 128 + place b.epoch.toNat 127 112 + place (m.rateCap l) 111 108 +
    place k.targetRate 107 106 + place (if k.stepReady then 13 else k.st.code) 105 102 + place (k.eqAsk[lane]).1.val 101 100 +
    place (k.eqAsk[lane]).2.val 99 98 + place (k.eqAns[lane]) 97 96 + place k.frameCount.toNat 95 88 + place lane.val 87 86
  BitVec.ofNat 256 (n + place (contentCrc n) 255 240)

/-- Both sides have named the same target in 8 consecutive frames of every lane (R233). -/
def Link.agreed (k : Link) : Bool := k.stepSeen.toList.all fun q => decide (8 ≤ q)

/-- Send a training frame on every lane: at the base rate before EXCHANGE has ended and on an Ls exit (R231, R237). -/
def Mach.sendFrames (m : Mach) (l : LinkId) : Mach :=
  let k := m.links[l]
  let rate := if [LinkState.detect, .baseAlign, .exchange, .ls].contains k.st then 0 else k.rate
  ((fins 3).foldl (fun t i => t.send (.frame l i rate (frameBits (m.ownContent l i)))) m).modLink l fun k =>
    { k with frameCount := k.frameCount + 1, stepSent := if k.agreed then k.stepSent + 1 else k.stepSent }

/-! ### Links as members (R251, R252) -/

/-- A link carries flits. -/
def Link.flows (k : Link) : Bool := decide (k.st = .l0) || decide (k.st = .l1)

/-- A member counts as live: L0, L1, or RETRAIN with the training that ends it (log 25). -/
def Link.live (k : Link) : Bool :=
  k.flows || decide (k.st = .retrain) || (k.fromRetrain && [LinkState.equalise, .check, .rateStep].contains k.st)

/-- The bundle a link has joined. -/
def Mach.bundleOf (m : Mach) (l : LinkId) : Option BundleId :=
  allBundles.find? fun b => (m.net.bundles[b]).members.contains l

/-- Ones in a number below 2^k. -/
def ones (n k : Nat) : Nat := ((List.range k).filter fun i => bit n i).length

/-- isolate of a bundle (R267). -/
def Mach.isolated (m : Mach) (b : BundleId) : Bool := decide (m.num (0x2640 + b.val) 0x0A = 1)

/-- The state R252 gives a bundle. -/
def Mach.bundleState (m : Mach) (b : BundleId) : BundleSt :=
  let k := m.net.bundles[b]
  let live := (k.members.filter fun l => (m.links[l]).live).length
  if k.role = 0 then .unused
  else if m.isolated b ∨ live < k.minLinks then .down
  else if live < ones k.planned.toNat 36 then .degraded
  else .up

/-! ### Credits (R248) -/

/-- Flits of VC v sent and not credited, with those of packets already given to the link. -/
def Link.used (k : Link) (v : VcId) : Nat :=
  (k.sent[v]) + ((k.txQ.filter fun h => decide (h.vc = v)).map fun h => pktFlits h.pkt).sum

/-- Shared use u. -/
def Link.shared (k : Link) : Nat := (allVcs.map fun v => k.used v - 72).sum

/-- A packet of f flits may be sent on VC v. -/
def Link.mayCredit (k : Link) (v : VcId) (f : Nat) : Bool :=
  let o := k.used v
  decide (o + f ≤ 72) || decide (k.shared + (o + f - 72) - (o - 72) ≤ 448)

/-- Unused credit of a VC. -/
def Link.unused (k : Link) (v : VcId) : Nat := (72 - k.used v) + (448 - k.shared)

/-- The member that a packet of f flits on VC v is sprayed to: most unused credit, lowest number among equals (R253). -/
def Mach.spray (m : Mach) (b : BundleId) (v : VcId) (f : Nat) : Option LinkId :=
  let ls := allLinks.filter fun l => (m.net.bundles[b]).members.contains l && (m.links[l]).flows && (m.links[l]).mayCredit v f &&
    m.reachable (linkPath l)
  ls.find? fun l => ls.all fun k => decide ((m.links[k]).unused v ≤ (m.links[l]).unused v)

/-! ### The input buffer and the resequencer (R254) -/

/-- Count a network event with the link, bundle and VC it happens at. -/
def Mach.netCount (m : Mach) (src : Nat) (l : Option LinkId) (b : Option BundleId) (v : Option VcId) (n : Nat := 1) : Mach :=
  m.count ⟨src, 126, none, l, b, v⟩ n

/-- The turn of a packet of an input buffer has come: it is the next in its bundle's and VC's order (R254). -/
def Bundle.due (k : Bundle) (h : Held) : Bool := decide ((hdrOf h.pkt).bseq = (k.rxSeq[h.vc]).toNat)

/-- The route of a packet: its entry under its own bank and incoming sub. -/
def Mach.routeOf (m : Mach) (p : Packet) : Nat :=
  let h := hdrOf p
  m.routeEntry h.rbank h.sub h.dst

/-- Flits leave an input buffer: their credits are owed to the neighbour (R248). -/
def Link.owe (k : Link) (h : Held) : Link := { k with owed := Vec.upd k.owed h.vc (· + pktFlits h.pkt) }

/-- Drop packets of a link's input buffer that satisfy a predicate, each counted in port_flush_drop. -/
def Mach.flushInput (m : Mach) (l : LinkId) (p : Held → Bool) : Mach :=
  let b := m.bundleOf l
  let gone := (m.links[l]).inBuf.filter p
  let m := gone.foldl (fun m h => m.netCount 0x800A (some l) b (some h.vc)) m
  m.modLink l fun k => gone.foldl Link.owe { k with inBuf := k.inBuf.filter fun h => !p h }

/-- Drop everything that a link has received and not passed on: whole packets, one received in part, and those that wait at their
consumer (R263). -/
def Mach.flushLink (m : Mach) (l : LinkId) : Mach :=
  let b := m.bundleOf l
  let k := m.links[l]
  let mine := fun (r : Rx) => decide (r.via.map Prod.fst = some l)
  let vs := (k.arrived.map fun p => vcOf (hdrOf p).cls (hdrOf p).sub) ++ (if k.rxFlits = [] then [] else [none]) ++
    (m.net.localRx.filter mine).map fun r => r.via.map Prod.snd
  let m := vs.foldl (fun m v => m.netCount 0x800A (some l) b v) (m.flushInput l fun _ => true)
  (m.modLink l fun k => { k with arrived := [], rxFlits := [] }).modNet fun n => { n with localRx := n.localRx.filter fun r => !mine r }

/-- Drop what waits in a link for transmission. -/
def Mach.flushOutput (m : Mach) (l : LinkId) : Mach :=
  let b := m.bundleOf l
  let m := (m.links[l]).txQ.foldl (fun m h => m.netCount 0x800A (some l) b (some h.vc)) m
  m.modLink l fun k => { k with txQ := [] }

/-! ### Floods (R259, R260, R323) -/

/-- Code of a bundle state. -/
def BundleSt.code : BundleSt → Nat
  | .unused => 0 | .down => 1 | .degraded => 2 | .up => 3

/-- Send a management message to the far end of every open bundle that carries MGT between modules of the plan: how floods
spread. The message's bytes are not given (log 7). -/
def Mach.flood (m : Mach) (kind : Nat) (fields : List Nat) : Mach :=
  let far := (m.net.bundles.toList.filter fun b => decide (b.role = 1) && BundleSt.open b.st).map Bundle.far
  let m := far.foldl (fun m d => m.mgtTo d kind m.net.floods fields) m
  m.modNet fun n => { n with floods := n.floods + 1 }

/-- A module's bundles as the fields of a LINK_EVENT. -/
def reportFields (p : Coord) (rs : List BundleRep) : List Nat :=
  p.toNat :: rs.flatMap fun r => [BundleSt.code r.st, r.role, r.dir, r.far.toNat, b2n r.selvedge]

/-! ### Folds against their tolerance (R269) -/

/-- Bundles of a member: its own, or as it reported them. -/
def Mach.reported (m : Mach) (p : Coord) : Option (List BundleRep) :=
  if p = m.net.own then some (m.net.mapAt p) else Sparse.find p.toNat m.net.linkMap

/-- Coordinates of a fold's members. -/
def Fold.members (f : Fold) : List Coord := (List.range f.ranks).filterMap fun r => (f.rank r).map Prod.fst

/-- The deviation of a fold (R269): DOWN GRID bundles of the worst member, of all members, DEGRADED bundles, pairs of members
without a route by the procedure of R259 on the present map (log 26). -/
def Mach.deviation (m : Mach) (f : Fold) : List Nat :=
  let bundles := f.members.map fun p => (m.reported p).getD []
  let down := bundles.map fun l => (l.filter fun r => decide (r.role = 1) && decide (r.st = .down)).length
  let lost := if f.members = [] then [] else
    m.net.lostPairs.filter fun e => f.members.contains e.1 && f.members.contains e.2
  [down.foldl max 0, down.sum, (bundles.map fun l => (l.filter fun r => decide (r.st = .degraded)).length).sum, lost.length]

/-- A fold's tolerance objects admit a deviation. -/
def Mach.tolerates (m : Mach) (k : FoldSlot) (d : List Nat) : Bool :=
  let i := 0x2501 + k.val
  decide (d.getD 0 0 ≤ m.num i 0x0B) && decide (d.getD 1 0 ≤ m.num i 0x0C) && decide (d.getD 2 0 ≤ m.num i 0x0D) &&
    (decide (m.num i 0x0E = 1) || decide (d.getD 3 0 = 0))

/-- Some part of a deviation is greater than before. -/
def worse (old new : List Nat) : Bool := (List.range 4).any fun i => decide (old.getD i 0 < new.getD i 0)

/-- A fold enters DEVIATED: a new deviation_id and its EMCY (R269). -/
def Mach.deviate (m : Mach) (k : FoldSlot) : Mach :=
  let m := m.modFold k fun f => { f with st := .deviated, deviation := f.deviation + 1 }
  m.emcy 0xFF06 (m.net.folds[k]).deviation.toNat 3 none 133

/-- Hold a fold against its tolerance (R269): in FORMING once every member has reported. In DEVIATED and ACCEPTED a further deviation,
one that is worse in some part than the last, counts anew, so that an acknowledgement never covers what the host has not seen (log 25). -/
def Mach.judgeFold (m : Mach) (k : FoldSlot) : Mach :=
  let f := m.net.folds[k]
  let d := m.deviation f
  let met := m.tolerates k d
  let ready := f.members.all fun p => (m.reported p).isSome
  let m' := m.modFold k fun f => { f with seen := d }
  match f.st with
  | .unplanned => m
  | .forming =>
    if !ready ∨ f.members = [] then m
    else if met then m'.modFold k fun f => { f with st := .ready } else m'.deviate k
  | .ready => if met then m' else m'.deviate k
  | .deviated | .accepted =>
    if met then m'.modFold k fun f => { f with st := .ready }
    else if worse f.seen d then m'.deviate k else m'

/-- Hold every fold against its tolerance. -/
def Mach.judgeFolds (m : Mach) : Mach := allCtx.foldl (fun m k => m.judgeFold k) m

/-! ### A bundle changes state (R252, R260, R263) -/

/-- Port down (R263): what the bundle's members hold, and what waits in any input buffer for the bundle, is dropped; its sequences
start again at 0 (R254). -/
def Mach.portDown (m : Mach) (b : BundleId) : Mach :=
  let mine := (m.net.bundles[b]).members
  let m := mine.foldl (fun m l => (m.flushLink l).flushOutput l) m
  let m := allLinks.foldl (fun m l =>
    let named := fun (h : Held) => decide ((hdrOf h.pkt).dst ≠ m.net.own) && decide (outSub (m.routeOf h.pkt) ≠ 3) &&
      decide (outBundle (m.routeOf h.pkt) = b)
    let gone := ((m.links[l]).inBuf.filter named).map fun h => (h.vc, (BitVec.ofNat 12 (hdrOf h.pkt).bseq : BitVec 12))
    let m := m.flushInput l named
    match m.bundleOf l with
    | some i => m.modBundle i fun k => { k with gone := k.gone ++ gone }
    | none => m) m
  m.modBundle b fun k => { k with txSeq := Vector.replicate 8 0, rxSeq := Vector.replicate 8 0, gone := [] }

/-- The map has changed: the route is REBUILDING, and what was built or reported before is void (R260). -/
def Mach.reroute (m : Mach) : Mach :=
  m.modNet fun n => { n with rebuilding := true, built := none, timedOut := false, reports := [], toldDrained := false }

/-- A bundle's state follows its members; a change is flooded, and the module that sees it rebuilds like those it tells
(R260, log 25). -/
def Mach.updateBundle (m : Mach) (b : BundleId) : Mach :=
  let st := m.bundleState b
  if (m.net.bundles[b]).st = st then m
  else
    let m := m.modBundle b fun k => { k with st := st }
    let m := if st = .down then m.portDown b else m
    (m.reroute.flood 0x2600 (reportFields m.net.own (m.net.mapAt m.net.own))).judgeFolds

/-- Every bundle follows its members. -/
def Mach.updateBundles (m : Mach) : Mach := allBundles.foldl (fun m b => m.updateBundle b) m

/-! ### A link leaves L0 for DETECT, DISABLED, HELD or TEST (R228, R248) -/

/-- What a link forgets when it starts afresh: replay and input buffers, sequences, credits. What waited for transmission is
sprayed anew to another member, where there is one (R253). -/
def Link.empty (k : Link) : Link :=
  { k with txSeq := 0, lastAck := 0xFFF, replay := [], replays := 0, rxSeq := 0, rxWaiting := false, rxPart := none,
           rxFlits := [], sendNak := false, arrived := [], inBuf := [], txQ := [], txNow := none, txRest := [], sent := Vector.replicate 8 0,
           owed := Vector.replicate 8 0, uncredited := [], reqSent := false, mgtFlits := 0, deficit := Vector.replicate 4 0 }

/-- A link goes to a state in which it is no member of a bundle; in DETECT it sends base-rate frames (R231). -/
def Mach.dropLink (m : Mach) (l : LinkId) (st : LinkState) : Mach :=
  let waiting := (m.links[l]).txQ
  let b := m.bundleOf l
  let m := m.flushLink l
  let m := m.modLink l fun k => { k.empty with
    st := st, rate := 0, ident := [], targetRate := 0, stepSeen := Vector.replicate 4 0, stepSent := 0, stepReady := false, passed := 0,
    fallback := false, fromRetrain := false, fromLs := false, retrainHeld := false, eqQuiet := Vector.replicate 4 0,
    eqAsk := Vector.replicate 4 (3, 0), prbsLocked := 0, prbsReg := Vector.replicate 4 [], injectBits := 0, checkOwn := none,
    checkNbr := none, checkBad := 0, checkSer := 0, checkSymbols := 0, laneMap := [0, 1, 2, 3], inverted := 0 }
  let m := if st = .detect then m.sendFrames l else m
  match b with
  | none => m
  | some b =>
    let m := m.modBundle b fun k => { k with members := k.members.filter (· ≠ l) }
    let m := waiting.foldl (fun m h => match m.spray b h.vc (pktFlits h.pkt) with
      | some i => m.modLink i fun k => { k with txQ := k.txQ ++ [h] }
      | none => m.netCount 0x800A (some l) (some b) (some h.vc)) m
    m.updateBundle b

end Sys2Proof.Machine
end

