-- ==== Sys2Proof/Machine/Network.lean ====
section
/-! DEFINITION. The fabric network's commands (chapter 09): reception, forwarding, arbitration, local delivery, routes, plan,
folds, isolation. -/

namespace Sys2Proof.Machine

open Sys2Proof

/-! ### Reception (R246, R254, R267, R268) -/

/-- Check 1 of R246: type, VC, length, reserved bits. -/
def malformed (h : Hdr) : Bool :=
  decide (h.ty = 7) || (vcOf h.cls h.sub).isNone || decide (4096 < h.length) || (decide (h.ty = tyGet) && decide (h.length = 0)) ||
    decide (h.reserved ≠ 0)

/-- Check 2 of R246: a Selvedge bundle admits MGT and the folds that its plan lists (R267). -/
def Bundle.admits (k : Bundle) (h : Hdr) : Bool :=
  !k.selvedge || decide (h.cls = clsMgt) || (decide (h.fold ≠ 0) && k.folds.contains (BitVec.ofNat 16 h.fold))

/-- The sender of a packet with a stale role hears of it: an ACK, or one STALE message for a bobbin of class COL, whose further
packets are dropped without another (R268, R190). -/
def Mach.staleAnswer (m : Mach) (h : Hdr) (p : Packet) : Mach :=
  let left := fun (n : Nat) (m : Mach) => { m with shut := { m.shut with
    asm := m.shut.asm.filter fun (x : ShMsg) => !decide (x.src = h.src), strays := Sparse.set 0 h.src.toNat n m.shut.strays } }
  if h.ty ≠ tyBobbin then m.ack h Status.staleRole.code
  else match m.ctxOfFold h.fold with
    | none => m
    | some c =>
      let begun := m.shut.asm.find? fun (g : ShMsg) => decide (g.src = h.src)
      match Sparse.find h.src.toNat m.shut.strays, begun with
      | some n, _ => left (n - p.payload.length) m
      | none, some g => (left ((shHdr g.hdr).length - (g.data.length + p.payload.length)) m).shStaleTo { g with ctx := c }
      | none, none =>
        let g : ShMsg := ⟨h.src, c, h.fold, BitVec.ofNat 512 (leNat p.payload), []⟩
        (left (shHdr g.hdr).length m).shStaleTo g

/-- A bobbin packet for the Shuttle; what a source has left of a stale bobbin ends with the first packet that is not stale. -/
def Mach.toShuttle (m : Mach) (h : Hdr) (p : Packet) : Mach :=
  ({ m with shut := { m.shut with strays := Sparse.set 0 h.src.toNat 0 m.shut.strays } }).bobbinPacket h.src (m.memberCtx h.fold) h.fold
    h.cls p.payload

/-- The types whose role epoch is compared (R268). -/
def hasRole (h : Hdr) : Bool :=
  decide (h.ty = tyPut) || decide (h.ty = tyGet) || decide (h.ty = tyToken) || (decide (h.ty = tyBobbin) && decide (h.cls = clsCol))

/-- A packet at its destination: checks 7 and 8 of R246, then its consumer (R244). PUT, GET, TOKEN and their answers hold their place
in the input buffer until the consumer takes them (R112, R248). -/
def Mach.deliverPacket (m : Mach) (p : Packet) (via : Option (LinkId × VcId)) : Mach :=
  let h := hdrOf p
  let l := via.map Prod.fst
  let b := l.bind m.bundleOf
  let v := vcOf h.cls h.sub
  let m' := m.owed ⟨p, via⟩
  if !pktCrcOk p then m'.netCount 0x8006 l b v
  else if hasRole h && (match m.ownEpoch h.fold with
    | some e => decide (e ≠ h.epoch)
    | none => false) then (m'.netCount 0x8007 l b v).staleAnswer h p
  else if h.ty = tyMgt then
    if Config.mgtBuffer ≤ m.mgmt.mgtRx.length then m'.netCount 0x800C l b v
    else m'.modMgmt fun g => { g with mgtRx := g.mgtRx ++ [p] }
  else if h.ty = tyBobbin then m'.toShuttle h p
  else m.modNet fun n => { n with localRx := n.localRx ++ [⟨p, via⟩] }

/-- The Shuttle takes bobbins only while the hub works (R384): until then they stay where they are. -/
def Mach.takesNow (m : Mach) (h : Hdr) : Bool := decide (h.ty ≠ tyBobbin) || m.works

/-- Remove one packet of an input buffer: its credit is owed. -/
def Mach.leaveInput (m : Mach) (l : LinkId) (h : Held) : Mach :=
  m.modLink l fun k => { k with inBuf := k.inBuf.erase h }.owe h

/-- Checks 1, 2 and 4 to 6 of R246 on a packet whose turn has come: the counter of the one that fails. -/
def Mach.refuses (m : Mach) (b : BundleId) (p : Packet) : Option Nat :=
  let h := hdrOf p
  let e := m.routeOf p
  if malformed h then some 0x8001
  else if !(m.net.bundles[b]).admits h then some 0x8002
  else if h.dst = m.net.own then none
  else if 511 ≤ h.hops + 1 then some 0x8003
  else if outSub e = 3 then some 0x8004
  else if !(Sparse.get (0 : BitVec 16) (turnIndex h.rbank b.val h.sub (outSub e)) m.net.turns).getLsbD (outBundle e).val then
    some 0x8005
  else none

/-- A packet whose turn has come is dropped or delivered; none while it waits: for its output, or for a hub that works (R246). -/
def Mach.pass (m : Mach) (l : LinkId) (b : BundleId) (p : Held) : Option Mach :=
  let h := hdrOf p.pkt
  match m.refuses b p.pkt with
  | some src => some ((m.netCount src (some l) (some b) (some p.vc)).leaveInput l p)
  | none =>
    if h.dst = m.net.own ∧ m.takesNow h then
      some ((m.modLink l fun k => { k with inBuf := k.inBuf.erase p }).deliverPacket p.pkt (some (l, p.vc)))
    else none

/-- The next sequence number of a bundle and VC is expected. -/
def Mach.nextSeq (m : Mach) (b : BundleId) (v : VcId) : Mach :=
  m.modBundle b fun k => { k with rxSeq := Vec.upd k.rxSeq v (· + 1), gone := k.gone.erase (v, k.rxSeq[v]) }

/-- The packet of a bundle and VC whose turn has come, with its link. -/
def Mach.dueAt (m : Mach) (b : BundleId) (v : VcId) : Option (LinkId × Held) :=
  let k := m.net.bundles[b]
  k.members.findSome? fun l => ((m.links[l]).inBuf.find? fun h => decide (h.vc = v) && k.due h).map fun h => (l, h)

/-- The resequencer of a bundle and VC passes the packets that are next in order, as far as they go: a packet to be forwarded keeps
its turn, and those behind it wait, until it has been (R254). -/
def Mach.reseq (m : Mach) (b : BundleId) (v : VcId) : Nat → Mach
  | 0 => m
  | f + 1 =>
    if (m.net.bundles[b]).gone.contains (v, (m.net.bundles[b]).rxSeq[v]) then Mach.reseq (m.nextSeq b v) b v f
    else match m.dueAt b v with
      | none => m
      | some (l, h) => match (m.nextSeq b v).pass l b h with
        | none => m
        | some m => Mach.reseq m b v f

/-- Packets that a bundle's members hold. -/
def Mach.heldIn (m : Mach) (b : BundleId) : Nat :=
  ((m.net.bundles[b]).members.map fun l => (m.links[l]).inBuf.length).sum + (m.net.bundles[b]).gone.length

/-- Run the resequencer of a bundle on every VC. -/
def Mach.reseqAll (m : Mach) (b : BundleId) : Mach := allVcs.foldl (fun m v => m.reseq b v (m.heldIn b)) m

/-- PACKET_RECEIVE (R246): the oldest packet that link l has received whole goes through the checks of R246 in order. On a link
that is in no open bundle it is dropped (R263). -/
def execPacketReceive (l : LinkId) (s : State) : Host.Outcome State Fault Refusal :=
  runs s fun m => m.over (linkPath l) fun m =>
    match m.bundleOf l, (m.links[l]).arrived with
    | none, [] => m
    | some b, [] => m.reseqAll b
    | ob, p :: rest =>
      let h := hdrOf p
      let m := m.modLink l fun k => { k with arrived := rest }
      match vcOf h.cls h.sub, ob with
      | none, ob => m.netCount 0x8001 (some l) ob none
      | some v, none => (m.netCount 0x800A (some l) none (some v)).modLink l fun k => k.owe ⟨v, p⟩
      | some v, some b =>
        let k := m.net.bundles[b]
        let drop := fun (src : Nat) => (m.netCount src (some l) (some b) (some v)).modLink l fun k => k.owe ⟨v, p⟩
        if !(BundleSt.open k.st) then drop 0x800A
        else
          let q : BitVec 12 := BitVec.ofNat 12 h.bseq
          if q = k.rxSeq[v] ∨ seqBefore 2047 (k.rxSeq[v]) q then
            (m.modLink l fun k => { k with inBuf := k.inBuf ++ [⟨v, p⟩] }).reseqAll b
          else if malformed h then drop 0x8001
          else if !k.admits h then drop 0x8002
          else drop 0x8001

/-- BUNDLE_RESEQ_TIMEOUT (R254): the missing sequence number is skipped, unless a member is replaying or in RETRAIN. -/
def execBundleReseqTimeout (b : BundleId) (v : VcId) (s : State) : Host.Outcome State Fault Refusal :=
  runs s fun m =>
    let k := m.net.bundles[b]
    let waits := (m.dueAt b v).isNone && k.members.any fun l => (m.links[l]).inBuf.any fun h => decide (h.vc = v)
    let busy := k.members.any fun l => decide ((m.links[l]).st = .retrain) || (m.links[l]).rxWaiting
    if !waits ∨ busy then m
    else
      ((m.netCount 0x8008 none (some b) (some v)).nextSeq b v).reseq b v (m.heldIn b)

/-! ### Forwarding (R249, R253, R255, R258, R262, R263) -/

/-- Output bundle and VC of a packet under a bank; none where it has no open one. -/
def Mach.outputOf (m : Mach) (bank : Bool) (h : Hdr) : Option (BundleId × VcId) :=
  let e := m.routeEntry bank h.sub h.dst
  if h.dst = m.net.own ∨ outSub e = 3 ∨ !(BundleSt.open (m.net.bundles[outBundle e]).st) then none
  else (vcOf h.cls (outSub e)).map fun v => (outBundle e, v)

/-- Flits that wait in the module for a bundle and VC: with its members, in input buffers, and with the local engines (R262). -/
def Mach.waitingFlits (m : Mach) (b : BundleId) (v : VcId) : Nat :=
  let flits := fun (l : List Held) => (l.map fun h => pktFlits h.pkt).sum
  let out := (m.net.bundles[b]).members.map fun l => flits ((m.links[l]).txQ.filter fun h => decide (h.vc = v))
  let inp := allLinks.map fun l => flits ((m.links[l]).inBuf.filter fun h =>
    decide (m.outputOf (hdrOf h.pkt).rbank (hdrOf h.pkt) = some (b, v)))
  out.sum + inp.sum + flits (m.net.inject.filter fun h => decide (m.outputOf m.net.bank (hdrOf h.pkt) = some (b, v)))

/-- The header of a packet under its new sub, with one more hop and its congestion mark; bits outside the hop fields stay. -/
def rehop (p : Packet) (sub hops : Nat) (cm : Bool) (bseq : Nat) : Packet :=
  { p with hdr := BitVec.ofNat 256 (p.hdr.toNat / 2 ^ 33 * 2 ^ 33 + place hops 32 24 + place sub 23 22 + place (b2n cm) 21 21 +
      place bseq 20 9) }

/-- Hand a routed packet to a member of its bundle; none where none has credit for all of it. -/
def Mach.toBundle (m : Mach) (b : BundleId) (v : VcId) (p : Packet) : Option Mach :=
  (m.spray b v (pktFlits p)).map fun l => (m.wake (linkPath l)).modLink l fun k => { k with txQ := k.txQ ++ [⟨v, p⟩] }

/-- Drop the packet of link l whose turn has come: counted, its credit owed, and the next one's turn. -/
def Mach.dropTurn (m : Mach) (l : LinkId) (i : BundleId) (x : Held) (src : Nat) : Mach :=
  ((m.netCount src (some l) (some i) (some x.vc)).leaveInput l x).nextSeq i x.vc

/-- Forward the transit packet of link l whose turn has come: it goes, or it is dropped, and the next one's turn comes; none where no
member has credit for it. As its tail passes, its CRC is checked and a failure counted (R246). -/
def Mach.forward (m : Mach) (l : LinkId) (i : BundleId) (x : Held) : Option Mach :=
  let h := hdrOf x.pkt
  let e := m.routeOf x.pkt
  let b := outBundle e
  let drop := fun (src : Nat) => some (m.dropTurn l i x src)
  if outSub e = 3 then drop 0x8004
  else if !(BundleSt.open (m.net.bundles[b]).st) then drop 0x800A
  else match vcOf h.cls (outSub e) with
    | none => drop 0x8005
    | some v =>
      let mark := decide (m.num (0x2640 + b.val) 0x0C < m.waitingFlits b v - pktFlits x.pkt)
      let bad := if pktCrcOk x.pkt then m else m.netCount 0x8000 (some l) (some i) (some x.vc)
      (((bad.leaveInput l x).nextSeq i x.vc).toBundle b v (rehop x.pkt (outSub e) (h.hops + 1) (h.cm || mark) 0)).map fun m =>
        if mark then m.netCount 0x8009 (some l) (some b) (some v) else m

/-- While a drained switch is awaited, packets of the classes whose graphs together have a cycle are not injected (R260). -/
def Mach.injects (m : Mach) (v : VcId) : Bool :=
  decide (m.net.built ≠ some false) || acyclic (flatPart (m.net.graph ++ m.net.graphNext) (decide (6 ≤ v.val)))

/-- Inject a packet of a local engine: its bank is the one in use (R255). To the module itself it goes straight to its
consumer. -/
def Mach.injectOut (m : Mach) (x : Held) : Mach :=
  let p : Packet := mkPacket { hdrOf x.pkt with rbank := m.net.bank } x.pkt.payload
  let h := hdrOf p
  let m' := m.modNet fun n => { n with inject := n.inject.erase x }
  let e := m.routeOf p
  let b := outBundle e
  if h.dst = m.net.own then (if m.takesNow h then m'.deliverPacket p none else m)
  else if outSub e = 3 then m'.netCount 0x8004 none none (some x.vc)
  else if !(Sparse.get (0 : BitVec 16) (turnIndex h.rbank 16 h.sub (outSub e)) m.net.turns).getLsbD b.val then
    m'.netCount 0x8005 none (some b) (some x.vc)
  else if !(BundleSt.open (m.net.bundles[b]).st) then m'.netCount 0x800A none (some b) (some x.vc)
  else match vcOf h.cls (outSub e) with
    | none => m'.netCount 0x8005 none (some b) (some x.vc)
    | some v => (m'.toBundle b v (rehop p (outSub e) h.hops h.cm 0)).getD m

/-- A packet of a local engine waits for the rebuild to give it a route (R260). -/
def Mach.awaitsRoute (m : Mach) (x : Held) : Bool :=
  let h := hdrOf x.pkt
  m.net.routeWait && decide (h.dst ≠ m.net.own) && decide (outSub (m.routeEntry m.net.bank h.sub h.dst) = 3)

/-- Number of a crossbar input: links 0 to 35, 36 the local engines. -/
def inputNo : Option LinkId → Nat
  | some l => l.val
  | none => 36

/-- The packet that an input of the crossbar has ready on a VC. -/
def Mach.headAt (m : Mach) (port : Option LinkId) (v : VcId) : Option Held :=
  match port with
  | some l => (m.bundleOf l).bind fun i =>
      (m.links[l]).inBuf.find? fun h => decide (h.vc = v) && (m.net.bundles[i]).due h && decide ((hdrOf h.pkt).dst ≠ m.net.own)
  | none => if m.injects v then m.net.inject.find? fun x => decide (x.vc = v) && !m.awaitsRoute x else none

/-- Bank of a packet: that in its header, or for the local engines the one in use (R255). -/
def Mach.bankOf (m : Mach) (port : Option LinkId) (x : Held) : Bool := if port.isNone then m.net.bank else (hdrOf x.pkt).rbank

/-- An input has a packet ready for an output bundle and VC that some member has credit for. -/
def Mach.contends (m : Mach) (b : BundleId) (w : VcId) (port : Option LinkId) : Bool :=
  allVcs.any fun v => match m.headAt port v with
    | some x => decide (m.outputOf (m.bankOf port x) (hdrOf x.pkt) = some (b, w)) && (m.spray b w (pktFlits x.pkt)).isSome
    | none => false

/-- It is an input's turn at an output bundle and VC: no other that contends for it comes earlier behind the one served last
(R250). -/
def Mach.hasTurn (m : Mach) (b : BundleId) (w : VcId) (port : Option LinkId) : Bool :=
  let after := fun (p : Option LinkId) => (inputNo p + 36 - Sparse.get 36 (b.val * 8 + w.val) m.net.served) % 37
  (allLinks.map some ++ [none]).all fun p => !m.contends b w p || decide (after port ≤ after p)

/-- The crossbar has served an input. -/
def Mach.serve (m : Mach) (b : BundleId) (w : VcId) (port : Option LinkId) : Mach :=
  m.modNet fun n => { n with served := Sparse.set 36 (b.val * 8 + w.val) (inputNo port) n.served }

/-- A packet whose buffer lost bits: its pkt_crc fails at its destination (R321). -/
def spoil (p : Packet) : Packet := { p with hdr := p.hdr ^^^ BitVec.ofNat 256 (2 ^ 255) }

/-- What an upset of hub SRAM does to a packet in its buffer (R320, R321). -/
def Mach.strike (m : Mach) (port : Option LinkId) (x : Held) : Option HopUpset → Mach × Held
  | some .corrected => (m.sramCe 127, x)
  | some .spoiled =>
    let y := { x with pkt := spoil x.pkt }
    let swap := fun (l : List Held) => l.map fun h => if h = x then y else h
    let m := m.sramUe 127 2 none
    (match port with
      | some l => m.modLink l fun k => { k with inBuf := swap k.inBuf }
      | none => m.modNet fun n => { n with inject := swap n.inject }, y)
  | _ => (m, x)

/-- The packet x of an input goes on its way; none while it waits. A route entry that fails its parity drops it (R320). -/
def Mach.onward (m : Mach) (port : Option LinkId) (x : Held) (upset : Option HopUpset) : Option Mach :=
  let (t, y) := m.strike port x upset
  match port with
  | none =>
    if upset = some .routeParity then
      some ((m.netCount 0x800B none none (some x.vc)).modNet fun n => { n with inject := n.inject.erase x })
    else some (t.injectOut y)
  | some l => (m.bundleOf l).bind fun i =>
      let gone := if upset = some .routeParity then some (m.dropTurn l i x 0x800B) else t.forward l i y
      gone.map fun t => t.reseqAll i

/-- PACKET_FORWARD (R249, R250, R255, R258, R262, R263): the packet of an input link's VC whose turn has come, or the oldest of the
local engines (`none`), goes to its bundle's best member once credit for all of it is there. Inputs that compete for one output VC
are served round-robin. `upset`: what befalls it (R320, R321). -/
def execPacketForward (port : Option LinkId) (h : HopStep) (s : State) : Host.Outcome State Fault Refusal :=
  runs s fun m => m.over [126] fun m =>
    match m.headAt port h.v with
    | none => m
    | some x =>
      let out := m.outputOf (m.bankOf port x) (hdrOf x.pkt)
      let turn := match out with
        | some (b, w) => m.hasTurn b w port
        | none => true
      let served := fun (t : Mach) => match out with
        | some (b, w) => if m.contends b w port then t.serve b w port else t
        | none => t
      let path := match port with
        | some l => linkPath l
        | none => []
      if !turn then m else m.over path fun m => ((m.onward port x h.upset).map served).getD m

/-! ### Arbitration (R250, R253) -/

/-- Flit slots of a link in 10 µs, by rate code: payload rate × 10 µs ÷ 64 B (R220, R250). -/
def slots10us (rate : Nat) : Nat := [1880, 7520, 15039, 15922].getD rate 15922

/-- The arbiter's classes, in its order: COL, REQ, RSP, BULK; their lo and hi VCs (log 27). -/
def drrVcs : List (VcId × VcId) := [(4, 5), (0, 1), (2, 3), (6, 6)]

/-- The packet that class i would send: lo and hi alternate by packet. -/
def Link.classHead (k : Link) (ready : Held → Bool) (i : Fin 4) : Option Held :=
  let vs := drrVcs.getD i.val (6, 6)
  let lo := (k.txQ.find? fun h => decide (h.vc = vs.1)).filter ready
  let hi := (k.txQ.find? fun h => decide (h.vc = vs.2)).filter ready
  if k.hiNext[i] then hi.or lo else lo.or hi

/-- The classes of the deficit round robin. -/
def drrClasses : List (Fin 4) := [0, 1, 2, 3]

/-- Deficit round robin, one round per step: the first class whose deficit covers its packet sends; otherwise every class with a
packet ready gains its weight (log 27). -/
def Link.drr (k : Link) (weight : Fin 4 → Nat) (ready : Held → Bool) : Nat → Option (Fin 4 × Held × Vector Nat 4)
  | 0 => none
  | f + 1 =>
    let can := drrClasses.findSome? fun i => match k.classHead ready i with
      | some h => if pktFlits h.pkt ≤ k.deficit[i] then some (i, h) else none
      | none => none
    match can with
    | some (i, h) => some (i, h, Vec.upd k.deficit i (· - pktFlits h.pkt))
    | none =>
      let d := drrClasses.foldl (fun d i => Vec.upd d i fun n =>
        if (k.classHead ready i).isSome then n + weight i else 0) k.deficit
      Link.drr { k with deficit := d } weight ready f

/-- Packets of a bundle and VC whose credit has not come back in full. -/
def Mach.uncredited (m : Mach) (b : BundleId) (v : VcId) : Nat :=
  ((m.net.bundles[b]).members.map fun l => ((m.links[l]).uncredited.filter fun e => decide (e.1 = v)).length).sum

/-- The flits of a packet: 32 header bytes, payload, zeros (R243). -/
def flitsOf (p : Packet) : List Bytes :=
  let b := natLe 32 p.hdr.toNat ++ p.payload
  let n := pktFlits p
  (List.range n).map fun i => (slice (64 * i) 64 b ++ List.replicate 64 0).take 64

/-- A link starts a packet (R225, R250, R253): the bundle's next sequence of its VC, its credit taken, its flits ready to go. -/
def Mach.begin (m : Mach) (l : LinkId) (b : BundleId) (x : Held) : Mach :=
  let h := hdrOf x.pkt
  let p := rehop x.pkt h.sub h.hops h.cm ((m.net.bundles[b]).txSeq[x.vc]).toNat
  let fs := flitsOf p
  let m := m.modBundle b fun k => { k with txSeq := Vec.upd k.txSeq x.vc (· + 1) }
  m.modLink l fun k => { k with
    txQ := k.txQ.erase x, txNow := some p, txRest := fs, sent := Vec.upd k.sent x.vc (· + fs.length),
    uncredited := k.uncredited ++ [(x.vc, fs.length)] }

/-- Flits of a packet that has been started go out as far as the replay buffer has room; with the last of them it is sent. A full
buffer lets none go, and the block time is counted (R225). -/
def Mach.sendFlits (m : Mach) (l : LinkId) : Mach :=
  let k := m.links[l]
  match k.txNow with
  | none => m
  | some p =>
    let n := 1024 - k.replay.length
    let fs := k.txRest.take n
    if fs = [] then m.count ⟨0x5004, 92 + l.val / 4, none, some l, none, none⟩
    else
      let m := m.modLink l fun k => { k with
        replay := k.replay ++ (fs.zip (List.range fs.length)).map fun e => ⟨k.txSeq + BitVec.ofNat 12 e.2, e.1⟩,
        txSeq := k.txSeq + BitVec.ofNat 12 fs.length, txRest := k.txRest.drop n,
        txNow := if k.txRest.drop n = [] then none else some p }
      let m := m.count ⟨0x500D, 92 + l.val / 4, none, some l, m.bundleOf l, none⟩ fs.length
      if k.txRest.drop n = [] then m.send (.packet l p) else m

/-- LINK_OUTPUT_ARBITRATE (R225, R250): the next whole packet of a link in L0, or the rest of one whose flits the replay buffer had
no room for. -/
def execLinkOutputArbitrate (l : LinkId) (s : State) : Host.Outcome State Fault Refusal :=
  runs s fun m => m.over (linkPath l) fun m =>
    let k := m.links[l]
    match m.bundleOf l with
    | none => m
    | some b =>
      if k.st ≠ .l0 then m
      else if k.txNow.isSome then m.sendFlits l
      else if k.txQ = [] then m
      else
        let fresh := decide (k.mgtSince + 10000 ≤ m.now)
        let k := if fresh then { k with mgtFlits := 0, mgtSince := m.now / 10000 * 10000 } else k
        let m := m.modLink l fun _ => k
        let ready := fun (h : Held) => decide (m.uncredited b h.vc < 2047)
        let cap := m.num 0x2500 0x0B * slots10us k.rate / 1000
        let mgt := (k.txQ.find? fun h => decide (h.vc = 7)).filter fun h => ready h &&
          (decide (k.mgtFlits + pktFlits h.pkt ≤ cap) || (decide (k.mgtFlits = 0) && decide (0 < cap)))
        let w := m.num 0x2500 0x0A
        match mgt with
        | some h => ((m.begin l b h).modLink l fun k => { k with mgtFlits := k.mgtFlits + pktFlits h.pkt }).sendFlits l
        | none => match k.drr (fun i => bits w (8 * i.val + 7) (8 * i.val)) ready 66 with
          | some (i, h, d) =>
            ((m.begin l b h).modLink l fun k =>
              { k with deficit := d, hiNext := Vec.upd k.hiNext i fun _ => decide (h.vc.val % 2 = 0) }).sendFlits l
          | none => m

/-! ### PUT, GET and TOKEN of other modules (R102, R112, R138, R263) -/

/-- A packet's context, where the module has one for its fold. -/
def Mach.rxCtx (m : Mach) (h : Hdr) : Option CtxId := m.memberCtx h.fold

/-- A foreign access lies in its context's window. -/
def Mach.rxInWindow (m : Mach) (c : CtxId) (h : Hdr) : Bool :=
  if h.dram then m.dramInWindow c h.addr h.length
  else decide (h.addr < 2 ^ 32) && m.spadInWindow c h.addr h.length

/-- The way of a foreign access: crossbar, MOVE, and the memory (R11). -/
def rxPath (h : Hdr) : List IslandId :=
  129 :: 126 :: (if h.dram then dramPath h.addr h.length else spadPath h.addr h.length)

/-- Write an accepted PUT and answer it. A write that the snapshot holds is answered when it is done (R299). -/
def Mach.putData (m : Mach) (c : CtxId) (h : Hdr) (b : Bytes) : Mach :=
  let m := m.wake (rxPath h)
  if h.dram then
    match m.dramWrite h.addr b (some c) none (m.held (ackHdr h 0) []) [] with
    | (m, none) => m
    | (m, some _) => m.ack h Status.uncorrectable.code
  else match m.spadStore h.addr b (some c) with
    | (m, some _) => m.ack h Status.uncorrectable.code
    | (m, none) => m.ack h 0

/-- Refuse a foreign access (R102). -/
def Mach.rxRefuse (m : Mach) (src : Nat) (c : Option CtxId) (h : Hdr) : Mach :=
  (m.cnt src 129 c).ack h Status.windowViolation.code

/-- An inbound PUT of a context waits for a buffer of pool 0. -/
def Mach.inboundWaits (m : Mach) : Bool := (m.pools[(0 : PoolId)]).waiting.any fun r => match r.why with
  | .inbound _ => true
  | _ => false

/-- PUT_RECEIVE (R102, R112): the oldest delivered PUT of class REQ. It takes a buffer of pool 0 charged to its context while it
is handled; without one it waits and holds back what is behind it. -/
def execPutReceive (s : State) : Host.Outcome State Fault Refusal :=
  runs s fun m =>
    if !m.works ∨ m.inboundWaits then m
    else match m.takeLocal fun h => decide (h.ty = tyPut) && decide (h.cls ≠ clsBulk) with
      | none => m
      | some (p, m') =>
        let h := hdrOf p
        match m.rxCtx h with
        | none => m'.rxRefuse 0xB001 none h
        | some c =>
          if !m.rxInWindow c h then m'.rxRefuse 0xB002 (some c) h
          else if !m.reachable (rxPath h) then m
          else match m.bpmAsk 0 ⟨rqCtx c, 1, .inbound c⟩ with
            | (m, false) => m
            | (m, true) => match m.takeLocal fun h => decide (h.ty = tyPut) && decide (h.cls ≠ clsBulk) with
              | some (_, m) => (m.bpmReturn 0 (rqCtx c) 1).putData c h p.payload
              | none => m

/-- GET_RECEIVE (R102): the oldest delivered GET of class REQ is answered with its data. An uncorrectable error is answered with
a negative ACK (R85). -/
def execGetReceive (s : State) : Host.Outcome State Fault Refusal :=
  runs s fun m =>
    if !m.works then m
    else match m.takeLocal fun h => decide (h.ty = tyGet) && decide (h.cls ≠ clsBulk) with
      | none => m
      | some (p, m') =>
        let h := hdrOf p
        match m.rxCtx h with
        | none => m'.rxRefuse 0xB001 none h
        | some c =>
          if !m.rxInWindow c h then m'.rxRefuse 0xB002 (some c) h
          else if !m.reachable (rxPath h) then m
          else
            let m := m'.wake (rxPath h)
            match (if h.dram then m.fetchDram h.addr h.length (some c) else m.fetchSpad h.addr h.length (some c)) with
            | (m, .error _) => m.ack h Status.uncorrectable.code
            | (m, .ok b) => m.getRsp h b

/-- Times a TOKEN is remembered: 10 ms, the last 4,096 (R263). -/
def Net.remember (n : Net) (now : Nat) : List (Nat × Nat × Nat × Nat) :=
  (n.tokens.filter fun e => decide (now ≤ e.2.2.2 + 10000000)).take 4096

/-- TOKEN_RECEIVE (R138, R263): the token goes to every target, to none where the context is not ENABLED, and is refused where a
count would pass 65,535; one that a disable has made void, or for an engine that is not fitted, is dropped like one for a context
that is not ENABLED; a repeated one is answered without being applied. -/
def execTokenReceive (s : State) : Host.Outcome State Fault Refusal :=
  runs s fun m =>
    if !m.works ∨ !m.reachable [132, 126] then m
    else match (m.wake [132, 126]).takeLocal fun h => decide (h.ty = tyToken) with
      | none => m
      | some (p, m) =>
        let h := hdrOf p
        let mask := bits h.token 17 12
        let id := bits h.token 11 0
        match m.rxCtx h with
        | none => m.rxRefuse 0xB001 none h
        | some c =>
          let seen := m.net.remember m.now
          let known := seen.any fun e => decide (e.1 = h.src.toNat) && decide (e.2.1 = h.ctx) && decide (e.2.2.1 = h.tag)
          if known then (m.cnt 0xE006 132 (some c)).ack h 0
          else if (m.ctxs[c]).st ≠ .enabled ∨ (m.grade = .n ∧ bit mask 4) ∨ (m.ctxs[c]).voided.contains (h.src.toNat, h.tag) then
            ((m.modCtx c fun x => { x with voided := x.voided.erase (h.src.toNat, h.tag) }).cnt 0xE005 132 (some c)).ack h 0
          else match (m.ctxs[c]).overflows mask id with
            | some _ => m.ack h Status.tokenOverflow.code
            | none =>
              let m := m.modCtx c fun x => x.emit mask id
              (m.modNet fun n => { n with tokens := (h.src.toNat, h.ctx, h.tag, m.now) :: seen.take 4095 }).ack h 0

/-- MGT_RECEIVE (R244): the management controller takes the oldest management packet. What LINK_EVENT and FENCE messages do is
the effect of LINK_EVENT and FENCE_MESSAGE. -/
def execMgtReceive (s : State) : Host.Outcome State Fault Refusal :=
  runs s fun m => if m.mgmtUp then m.modMgmt fun g => { g with mgtRx := g.mgtRx.drop 1 } else m

/-! ### The route (R259, R260) -/

/-- LINK_EVENT (R260): a module's bundles reach this one: the link map takes them, the route is REBUILDING, the flood goes on where
it brings something new. -/
def execLinkEvent (from_ : Coord) (bundles : List BundleRep) (s : State) : Host.Outcome State Fault Refusal :=
  runs s fun m =>
    if !m.mgmtUp ∨ from_ = m.net.own then m
    else
      let old := Sparse.find from_.toNat m.net.linkMap
      let m := m.modNet fun n => { n with linkMap := Sparse.put from_.toNat bundles n.linkMap }
      if old = some bundles then m.judgeFolds
      else (m.reroute.flood 0x2600 (reportFields from_ bundles)).judgeFolds

/-- A link holds no packet under a bank, in whole or in part. -/
def Link.clearOf (k : Link) (bank : Bool) : Bool :=
  let free := fun (p : Packet) => decide ((hdrOf p).rbank ≠ bank)
  ((k.inBuf ++ k.txQ).all fun h => free h.pkt) && k.arrived.all free && k.txNow.all free &&
    (decide (k.rxFlits = []) || free ⟨BitVec.ofNat 256 (leNat ((k.rxFlits.headD []).take 32)), []⟩)

/-- The module holds no packet under a bank. -/
def Mach.bankEmpty (m : Mach) (bank : Bool) : Bool :=
  (m.links.toList.all fun k => k.clearOf bank) && m.net.localRx.all fun r => r.via.isNone || decide ((hdrOf r.pkt).rbank ≠ bank)

/-- The modules of the plan region that answer, and the route coordinator: the first of them in (z, y, x) order (R260). -/
def Mach.answering (m : Mach) : List Coord := (boxOf m.net.lo m.net.hi).filter fun p => (m.reported p).isSome
def Mach.coordinator (m : Mach) : Coord := m.answering.headD m.net.own

/-- Report to the route coordinator: BUILT, and whether a direct switch is possible and nothing is left under the old bank. -/
def Mach.tell (m : Mach) (direct drained : Bool) : Mach :=
  let m := m.modNet fun n => { n with toldDrained := drained }
  if m.coordinator = m.net.own then
    m.modNet fun n => { n with reports := Sparse.put n.own.toNat ⟨n.own, direct, drained⟩ n.reports }
  else m.mgtTo m.coordinator 0x2500 6 [m.net.generation.toNat + 1, b2n direct, b2n drained]

/-- ROUTE_BUILT (R259, R260): this module's build: the inactive bank is written once no flit is left under it, and BUILT is reported
to the route coordinator; where a drained switch is due, a second report follows once no flit is left under the old bank. -/
def execRouteBuilt (s : State) : Host.Outcome State Fault Refusal :=
  runs s fun m =>
    if !m.net.rebuilding ∨ !m.mgmtUp then m
    else match m.net.built with
      | none =>
        if !m.bankEmpty (!m.net.bank) then m
        else
          let r := m.net.build (!m.net.bank)
          let direct := acyclic (r.graph ++ m.net.graph)
          (m.modNet fun n => { n with routes := r.routes, turns := r.turns, graphNext := r.graph, built := some direct }).tell direct
            (!direct && m.bankEmpty m.net.bank)
      | some direct => if direct ∨ m.net.toldDrained ∨ !m.bankEmpty m.net.bank then m else m.tell false true

/-- The coordinator may order a switch: every module that answers has reported BUILT, for a drained switch that it is drained; a
module that is not the coordinator follows the order it gets (R260). -/
def Mach.maySwitch (m : Mach) (drained : Bool) : Bool :=
  decide (m.coordinator ≠ m.net.own) || m.answering.all fun p => match Sparse.find p.toNat m.net.reports with
    | some r => if drained then r.drained else r.direct
    | none => false

/-- The coordinator's order goes to every other module that answers. -/
def Mach.orderSwitch (m : Mach) (drained : Bool) : Mach :=
  if m.coordinator ≠ m.net.own then m
  else (m.answering.filter (· ≠ m.net.own)).foldl (fun m p => m.mgtTo p 0x2500 7 [m.net.generation.toNat + 1, b2n drained]) m

/-- Reports of other modules have come to the route coordinator (R260). -/
def Mach.hearReports (m : Mach) (rs : List RouteReport) : Mach :=
  if !m.net.rebuilding ∨ !m.mgmtUp then m
  else (rs.filter fun r => decide (r.from_ ≠ m.net.own)).foldl
    (fun m r => m.modNet fun n => { n with reports := Sparse.put r.from_.toNat r n.reports }) m

/-- ROUTE_SWITCH (R260): the coordinator has heard reports and orders the switch once they allow it, or its order arrives. A direct one
is made only where the union of both graphs has no cycle; a drained one only when nothing is left under the old bank. -/
def execRouteSwitch (o : SwitchOrder) (s : State) : Host.Outcome State Fault Refusal :=
  runs s fun m =>
    let drained := o.drained
    let m := m.hearReports o.reports
    match m.net.built with
    | none => m
    | some direct =>
      if (!drained && !direct) || (drained && !m.bankEmpty m.net.bank) || !m.maySwitch drained then m
      else
        ((m.orderSwitch drained).modNet fun n => { n with
          bank := !n.bank, rebuilding := false, built := none, timedOut := false, graph := n.graphNext, graphNext := [],
          generation := n.generation + 1, reports := [], toldDrained := false }).judgeFolds

/-- ROUTE_REBUILD_TIMEOUT (R260): from now on packets without a route follow R256. -/
def execRouteRebuildTimeout (s : State) : Host.Outcome State Fault Refusal :=
  runs s fun m => if m.net.rebuilding then m.modNet fun n => { n with timedOut := true } else m

/-! ### Plan, rank map, folds (R265 to R267, R269, R271, R272) -/

/-- Coordinates of a 32-bit object. -/
def coordOf (n : Nat) : Coord := BitVec.ofNat 18 n

/-- The accepted folds of a bundle's plan object. -/
def foldsOf (n : Nat) : List (BitVec 16) :=
  ((List.range 4).map fun i => BitVec.ofNat 16 (bits n (16 * i + 15) (16 * i))).filter fun f => f ≠ 0

/-- The plan objects of a bundle as they stand. -/
def Mach.planBundle (m : Mach) (b : BundleId) (k : Bundle) : Bundle :=
  let i := 0x2640 + b.val
  { k with role := m.num i 1, dir := m.num i 2, tag := m.num i 3, planned := BitVec.ofNat 36 (m.num i 4), minLinks := m.num i 5,
           far := coordOf (m.num i 6), accept := decide (m.num i 7 = 1), selvedge := decide (m.num i 8 = 1),
           folds := foldsOf (m.num i 9), epoch := BitVec.ofNat 16 (m.num i 0x0B) }

/-- A link's bundle changes with a new plan: another bundle, or another plan for it. -/
def planMoves (old new : Vector Bundle 16) (l : LinkId) : Bool :=
  match plannedOf old l, plannedOf new l with
  | none, none => false
  | some a, some b => decide (a ≠ b) || decide (
      ({ old[a] with st := .unused, members := [], txSeq := Vector.replicate 8 0, rxSeq := Vector.replicate 8 0, gone := [] } : Bundle) ≠
      { new[b] with st := .unused, members := [], txSeq := Vector.replicate 8 0, rxSeq := Vector.replicate 8 0, gone := [] })
  | _, _ => true

/-- Links train only while their islands have power: not in STANDBY, MGMT_ONLY or OFF (R382). -/
def Mach.linksOn (m : Mach) : Bool := m.works || decide (m.pwr.modState = .quiet)

/-- A link may train: power, link_enable, no isolated bundle, and no plan that gives it to an UNUSED bundle (R231, R251, R267). -/
def Mach.mayTrain (m : Mach) (l : LinkId) : Bool :=
  m.linksOn && decide (m.num (0x2600 + l.val) 2 = 1) &&
    match plannedOf m.net.bundles l with
    | some b => !m.isolated b
    | none => !allBundles.any fun b => (m.net.bundles[b]).planned.getLsbD l.val

/-- A link is reset: DETECT, or DISABLED while it may not train (R240). -/
def Mach.resetLink (m : Mach) (l : LinkId) : Mach :=
  m.dropLink l (if m.mayTrain l then .detect else .disabled)

/-- What R232 finds in a neighbour's content: the bundle the link joins, held_reason, and whether it is relabelled. -/
def Mach.identify (m : Mach) (l : LinkId) (n : Nat) : Option BundleId × Nat × Bool :=
  let far := BitVec.ofNat 18 (bits n 145 128)
  let fits := fun (b : BundleId) => decide ((m.net.bundles[b]).role ≠ 0) && decide ((m.net.bundles[b]).far = far) &&
    decide ((m.net.bundles[b]).tag = bits n 169 162)
  let full := fun (b : BundleId) => decide (ones (m.net.bundles[b]).planned.toNat 36 ≤
    ((m.net.bundles[b]).members.filter (· ≠ l)).length)
  let level := decide (min (m.num 0x2630 1) (bits n 161 154) < 1)
  let join := fun (b : BundleId) (relabel : Bool) =>
    if full b then (none, 1, false) else if level then (none, 3, false) else (some b, 0, relabel)
  match (plannedOf m.net.bundles l).filter fits with
  | some b => join b false
  | none => match allBundles.find? fits with
    | some b => if (m.net.bundles[b]).accept then join b true else (none, 2, false)
    | none => (none, 1, false)

/-- held_reason for a neighbour's content, 0 where nothing holds the link (R232). -/
def Mach.holdReason (m : Mach) (l : LinkId) (n : Nat) : Nat :=
  match m.identify l n with
  | (none, reason, _) => reason
  | (some b, _, _) => if bits n 127 112 ≠ (m.net.bundles[b]).epoch.toNat then 4 else 0

/-- Management firmware looks at a HELD link again (R231): once nothing holds it any more it trains from DETECT. -/
def Mach.reevaluate (m : Mach) (l : LinkId) (n : Nat) : Mach :=
  if (m.links[l]).st = .held ∧ m.holdReason l n = 0 then m.resetLink l else m

/-- The region of a plan is legal (R272). -/
def regionOk (lo hi : Coord) : Bool :=
  [0, 1, 2].all (fun a => decide (axis lo a ≤ axis hi a)) &&
    decide ((axis hi 0 + 1 - axis lo 0) * (axis hi 1 + 1 - axis lo 1) * (axis hi 2 + 1 - axis lo 2) ≤ 16384)

/-- The plan objects take effect (R271): coordinates, region, bundles; links whose bundle changed are reset; folds with a plan
are FORMING (R269). -/
def Mach.applyPlan (m : Mach) : Mach :=
  let old := m.net.bundles
  let new := Vector.ofFn fun b => m.planBundle b old[b]
  let m := m.modNet fun n => { n with own := coordOf (m.num 0x2500 1), lo := coordOf (m.num 0x2500 2), hi := coordOf (m.num 0x2500 3),
                                      wrap := BitVec.ofNat 8 (m.num 0x2500 4), bundles := new }
  let m := allLinks.foldl (fun m l =>
    if planMoves old new l then m.resetLink l else m.reevaluate l (m.links[l]).nbr.toNat) m
  let m := allCtx.foldl (fun m k => m.modFold k fun f =>
    { f with st := if m.num (0x2501 + k.val) 1 = 0 then .unplanned else .forming }) m
  m.reroute.updateBundles.judgeFolds

/-- A fold slot with a plan records new home coordinates at the next rank_map_commit (R330). -/
def Mach.homesDue (m : Mach) : Mach :=
  allCtx.foldl (fun m k => if m.num (0x2501 + k.val) 1 = 0 then m else m.modFold k fun f => { f with homeDue := true }) m

/-- The writer of plan_commit. -/
def wrPlanCommit : Writer := fun m _ _ =>
  Wr.guard (!regionOk (coordOf (m.num 0x2500 2)) (coordOf (m.num 0x2500 3))) abRange (.ok m.applyPlan.homesDue)

/-- PLAN_COMMIT (R271, R272). -/
def execPlanCommit (ch : Channel) (data : Bytes) (s : State) : Host.Outcome State Fault Refusal :=
  runs s fun m => m.dictWrite ch 0x2500 5 data wrPlanCommit

/-- Coordinates and home places of a map's valid entries as they stand (R330). -/
def homesOf (map : Bytes) : Bytes :=
  (List.range (map.length / 8)).flatMap fun r => natLe 4 (getLe map (8 * r) 8 % 2 ^ 18)

/-- The writer of rank_map_commit: the entries of the rank_count ranks, and their generation, are in force; home coordinates are
recorded at the first commit after the slot's plan_commit (R266, R330). A generation that does not come after the slot's, as the
serial of R266 compares them, is refused (log 49). -/
def wrRankMapCommit (k : FoldSlot) : Writer := fun m _ v =>
  let map := (m.obj (0x2501 + k.val) 5).toBytes.take (8 * m.num (0x2501 + k.val) 4)
  let f := m.net.folds[k]
  .guard (f.committed && !seqBefore (2 ^ 31 - 1) f.generation (BitVec.ofNat 32 v.toNum)) abRange <| .ok ((m.modFold k fun f => { f with
    rankMap := map, generation := BitVec.ofNat 32 v.toNum, committed := true,
    homes := if f.homeDue then homesOf map else f.homes, homeDue := false }).judgeFold k)

/-- RANK_MAP_COMMIT (R266). -/
def execRankMapCommit (ch : Channel) (f : FoldSlot) (data : Bytes) (s : State) : Host.Outcome State Fault Refusal :=
  runs s fun m => m.dictWrite ch (0x2501 + f.val) 6 data (wrRankMapCommit f)

/-- The writer of fold_binding: fold slot 0 to 3 that no other context has, or 0xFF (R265). -/
def wrFoldBinding (c : CtxId) : Writer := fun m _ v =>
  let n := v.toNum
  let taken := allCtx.any fun d => decide (d ≠ c) && decide (m.num 0x2510 (d.val + 1) = n) && decide (n ≠ 0xFF)
  Wr.guard (taken || (decide (4 ≤ n) && decide (n ≠ 0xFF))) abRange (.ok (m.setObj 0x2510 (c.val + 1) v))

/-- FOLD_BINDING (R265). -/
def execFoldBinding (ch : Channel) (c : CtxId) (data : Bytes) (s : State) : Host.Outcome State Fault Refusal :=
  runs s fun m => m.dictWrite ch 0x2510 (c.val + 1) data (wrFoldBinding c)

/-- The writer of fold_accept (R269): it must name the current deviation. Outside DEVIATED it changes nothing. -/
def wrFoldAccept (k : FoldSlot) : Writer := fun m _ v =>
  let f := m.net.folds[k]
  Wr.guard (decide (v.toNum ≠ f.deviation.toNat)) abRange
    (.ok (if f.st = .deviated then m.modFold k fun f => { f with st := .accepted } else m))

/-- FOLD_ACCEPT (R269). -/
def execFoldAccept (ch : Channel) (f : FoldSlot) (data : Bytes) (s : State) : Host.Outcome State Fault Refusal :=
  runs s fun m => m.dictWrite ch (0x2501 + f.val) 0x0A data (wrFoldAccept f)

/-- FOLD_WAIT_TIMEOUT (R269): the fabric slot at the head of a context's MOVE queue, or of its SHUTTLE queue, that waits for its
fold fails with TIMEOUT, detail fold_wait_timeout. -/
def execFoldWaitTimeout (c : CtxId) (s : State) : Host.Outcome State Fault Refusal :=
  runs s fun m =>
    let fail := fun (e : Eng) (q : QSlot) =>
      (m.takeHead c e).failSlot c q { status := .timeout, detail := objDetail 0x2500 0x0C }
    let waits := !m.unplanned c && !m.foldFlows c
    match m.startable c .move, m.startable c .shuttle with
    | some q, _ =>
      if waits && (parseMove q.bytes).fabric then fail .move q
      else match m.startable c .shuttle with
        | some q => if m.foldWaits c then fail .shuttle q else m
        | none => m
    | none, some q => if m.foldWaits c then fail .shuttle q else m
    | none, none => m

/-- A bundle is isolated, or no longer (R267): its links go into electrical idle, or train again from DETECT. -/
def Mach.isolate (m : Mach) (b : BundleId) (on : Bool) : Mach :=
  let was := m.isolated b
  let m := m.setObj (0x2640 + b.val) 0x0A (.num (b2n on))
  let mine := allLinks.filter fun l => decide (plannedOf m.net.bundles l = some b) || (m.net.bundles[b]).members.contains l
  let m := if was = on then m
    else if on then mine.foldl (fun m l => m.dropLink l .disabled) m
    else mine.foldl (fun m l => m.resetLink l) m
  m.updateBundle b

/-- Bundles that the fence of a fold isolates: those with the Selvedge flag that accept the fold (R323). -/
def Mach.fenceBundles (m : Mach) (fold : Nat) : List BundleId :=
  allBundles.filter fun b => (m.net.bundles[b]).selvedge && (m.net.bundles[b]).folds.contains (BitVec.ofNat 16 fold)

/-- A fence ends when none of its bundles is isolated any more (R323). -/
def Mach.unfence (m : Mach) : Mach :=
  allCtx.foldl (fun m k =>
    if (m.net.folds[k]).fenced && (m.fenceBundles (m.num (0x2501 + k.val) 1)).all fun b => !m.isolated b then
      m.modFold k fun f => { f with fenced := false }
    else m) m

/-- The writer of isolate. -/
def wrIsolate (b : BundleId) : Writer := fun m _ v =>
  .ok (if v.toNum = 1 then m.isolate b true else (m.isolate b false).unfence)

/-- ISOLATE (R267). -/
def execIsolate (ch : Channel) (b : BundleId) (data : Bytes) (s : State) : Host.Outcome State Fault Refusal :=
  runs s fun m => m.dictWrite ch (0x2640 + b.val) 0x0A data (wrIsolate b)

end Sys2Proof.Machine
end

