-- ==== Sys2Proof/Machine/Pools.lean ====
section
/-! DEFINITION. Waiting requests of the buffer pools (R111, R112): the grant in arrival order, and the end of a wait that lasts
longer than bpm_quota_wait_timeout. -/

namespace Sys2Proof.Machine

open Sys2Proof

/-- Is a delivered packet a PUT of class REQ: the kind that waits for a buffer of pool 0? -/
def waitsForBuffer (h : Hdr) : Bool := decide (h.ty = tyPut) && decide (h.cls ≠ clsBulk)

/-- What a granted reservation was asked for goes on (R101, R105, R112, R193). -/
def Mach.granted (m : Mach) (p : PoolId) (q : BpmReq) : Mach :=
  match q.why with
  | .get c uid | .host c uid =>
    match m.moveJob c uid with
    | some j => m.runReserved j q.n
    | none => m.bpmReturn p q.who q.n
  | .inbound c =>
    let m := m.bpmReturn p q.who q.n
    match m.takeLocal waitsForBuffer with
    | some (k, m) => m.putData c (hdrOf k) k.payload
    | none => m
  | .admission key => m.modColl key fun k => { k with reserved := q.n }
  | .drover _ => m.bpmReturn p q.who q.n

/-- The engines and memories that a waiting request goes on with take work (R17). -/
def Mach.mayGrant (m : Mach) (q : BpmReq) : Bool :=
  match q.why with
  | .get c uid | .host c uid => ((m.moveJob c uid).map fun j => m.reachable j.nextPath).getD true
  | .inbound _ => ((m.takeLocal waitsForBuffer).map fun k => m.reachable (rxPath (hdrOf k.1))).getD true
  | _ => true

/-- BPM_GRANT (R111, R112): the request at the head of a pool's queue is granted whole, once it fits. -/
def execBpmGrant (p : PoolId) (s : State) : Host.Outcome State Fault Refusal :=
  runs s fun m =>
    match (m.pools[p]).waiting with
    | [] => m
    | q :: rest =>
      if m.bpmFits p q.who q.n ∧ m.mayGrant q then
        ((m.modPool p fun x => { x with waiting := rest }).bpmReserve p q.who q.n).granted p q
      else m

/-- The end of a wait that was too long, by what it was for (R112). -/
def Mach.waitedTooLong (m : Mach) (p : PoolId) (q : BpmReq) : Mach :=
  let late := fun (m : Mach) (c : CtxId) => m.cnt 0x9002 127 (some c)
  match q.why with
  | .get c uid | .host c uid =>
    match m.moveJob c uid with
    | some j => (late m c).failMove j Status.quotaWaitTimeout.code p.val
    | none => late m c
  | .inbound c =>
    let m := m.cnt 0x9003 127 (some c)
    match m.takeLocal waitsForBuffer with
    | some (_, m) => m
    | none => m
  | .admission key => (late m key.ctx).failColl key Status.quotaWaitTimeout.code p.val
  | .drover c =>
    (late m c).faultCtx c ⟨BitVec.ofNat 8 Status.quotaWaitTimeout.code, BitVec.ofNat 32 p.val, 7,
      (m.ctxs[c]).lastCommitted, 0, (m.ctxs[c]).step, false, noRange, noRange, 0xFF, m.now⟩

/-- BPM_QUOTA_WAIT_TIMEOUT (R112): the request at the head of a pool's queue has waited too long. -/
def execBpmQuotaWaitTimeout (p : PoolId) (s : State) : Host.Outcome State Fault Refusal :=
  runs s fun m =>
    match (m.pools[p]).waiting with
    | [] => m
    | q :: rest => (m.modPool p fun x => { x with waiting := rest }).waitedTooLong p q

end Sys2Proof.Machine
end

