-- ==== Sys2Proof/Machine/Vector.lean ====
section
/-! DEFINITION. The vector engine (chapter 06): operands, the opcodes of R170, start, parity, commit. -/

namespace Sys2Proof.Machine

open Sys2Proof

/-! ### Operands (R162, R163, R165, R166, R173) -/

/-- Position (i0, i1, i2, i3) of linear index i in a shape (R38). -/
def Td.posOf (t : Td) (i : Nat) : Nat × Nat × Nat × Nat :=
  (i % t.size0, i / t.size0 % t.size1, i / (t.size0 * t.size1) % t.size2, i / (t.size0 * t.size1 * t.size2))

/-- A position in a broadcast operand: 0 in every dimension of size 1 (R162). -/
def Td.clip (t : Td) (p : Nat × Nat × Nat × Nat) : Nat × Nat × Nat × Nat :=
  let k := fun (n i : Nat) => if n = 1 then 0 else i
  (k t.size0 p.1, k t.size1 p.2.1, k t.size2 p.2.2.1, k t.size3 p.2.2.2)

/-- A source element at a position, broadcast where the source is. -/
def Mach.tdAt (m : Mach) (t : Td) (p : Nat × Nat × Nat × Nat) : Num :=
  let q := t.clip p
  let row := ((t.addr : Int) + t.rowOff (m.indexOf t) q.2.1 q.2.2.1 q.2.2.2).toNat
  elemOf m.spadRead t.format t.size0 row q.1

/-- The partial type of a stream, as a format. -/
def TakeUp.fmt (u : TakeUp) : Fmt := if u.part = 1 then .fp64 else if u.part = 2 then .int64 else .fp32

/-- What a running VECTOR slot computes with: the memory it reads, its slot, its take-up stream if it has one, and the
generator inputs of its word. -/
structure VecEnv where
  m : Mach
  s : VecSlot
  up : Option TakeUp
  seed : Nat
  step : Nat
  deriving DecidableEq, Repr

/-- The operation type (R165, R173). -/
def VecEnv.ty (v : VecEnv) : Fmt :=
  let o := vOp? v.s.opcode
  let fs := match o with
    | some o => (v.s.used o).map Td.format
    | none => []
  if fs.contains .fp64 || (match v.up with
    | some u => decide (u.part = 1)
    | none => false) then .fp64 else .fp32

/-- A source value in the operation type: integers are rounded, floating-point values stand (R166). -/
def VecEnv.load (v : VecEnv) (f : Fmt) (x : Num) : Num :=
  match vOp? v.s.opcode with
  | some o => if f.isInt ∧ o.wide ≠ .integer then v.ty.rnd x else x
  | none => x

/-- Element of src0 at a position of the iteration space. -/
def VecEnv.a (v : VecEnv) (p : Nat × Nat × Nat × Nat) : Num :=
  let t := v.s.src0
  match v.up with
  | none => v.load t.format (v.m.tdAt t p)
  | some u =>
    let q := t.clip p
    let i := q.1 + t.size0 * (q.2.1 + t.size1 * (q.2.2.1 + t.size2 * q.2.2.2))
    v.load u.fmt (u.fmt.decode (Sparse.get 0 i u.vals))

/-- Element of src1 at a position. -/
def VecEnv.b (v : VecEnv) (p : Nat × Nat × Nat × Nat) : Num := v.load v.s.src1.format (v.m.tdAt v.s.src1 p)

/-- FP32 value at byte offset o of the auxiliary tensor. -/
def VecEnv.auxAt (v : VecEnv) (o : Nat) : Num := Fmt.decode .fp32 (leNat (v.m.spadRead (v.s.aux + o) 4))

/-- Immediate 0. -/
def VecEnv.i0 (v : VecEnv) : Num := Fmt.decode .fp32 v.s.imm0

/-- Immediate 1. -/
def VecEnv.i1 (v : VecEnv) : Num := Fmt.decode .fp32 v.s.imm1

/-! ### Elementwise opcodes (R170, R174) -/

/-- κ: the FP32 value nearest 1/√2 (R166). -/
def vKappa : Num := Fmt.decode .fp32 0x3F3504F3

/-- λ: the FP32 value nearest 1/√(2π) (R166). -/
def vLambda : Num := Fmt.decode .fp32 0x3ECC422A

/-- 1. -/
def vOne : Num := .fin false 1 0

/-- gelu(a) (R170). -/
def Fmt.vgelu (t : Fmt) (a : Num) : Num :=
  t.vmul (t.vmul a vHalf) (t.vadd vOne (t.rnd (t.vmul a vKappa).erfF))

/-- gelu_bwd(a, b) (R170). -/
def Fmt.vgeluBwd (t : Fmt) (a b : Num) : Num :=
  let big := t.vmul vHalf (t.vadd vOne (t.rnd (t.vmul b vKappa).erfF))
  let small := t.vmul vLambda (t.rnd (t.vmul (t.vmul b b) vHalf.neg).expF)
  t.vmul a (t.vadd big (t.vmul b small))

/-- silu_bwd(a, b) (R170). -/
def Fmt.vsiluBwd (t : Fmt) (a b : Num) : Num :=
  let s := t.rnd b.sigmoidF
  t.vmul a (t.vmul s (t.vadd vOne (t.vmul b (t.vsub vOne s))))

/-- a where the gate is positive, otherwise +0; NaN in either gives NaN (R170). -/
def reluGate (a b : Num) : Num :=
  if a.isNan || b.isNan then .nan else if Num.zero.lt b then a else Num.zero

/-- The result of an elementwise opcode at linear index i and position p of the destination. -/
def VecEnv.elem (v : VecEnv) (i : Nat) (p : Nat × Nat × Nat × Nat) : Num :=
  let t := v.ty
  let a := v.a p
  match v.s.opcode with
  | 0x01 | 0x0B => a
  | 0x02 => t.vadd a (v.b p)
  | 0x03 => t.vsub a (v.b p)
  | 0x04 => t.vmul a (v.b p)
  | 0x05 => t.vdiv a (v.b p)
  | 0x06 => t.vfma a (v.b p) (v.auxAt (4 * i))
  | 0x07 => t.vfma v.i0 a (t.vmul v.i1 (v.b p))
  | 0x08 => a.maxF (v.b p)
  | 0x09 => a.minF (v.b p)
  | 0x0A => t.vfma a v.i0 v.i1
  | 0x0C => reluGate a a
  | 0x0D => t.vgelu a
  | 0x0E => t.vmul a (t.rnd a.sigmoidF)
  | 0x0F => reluGate a (v.b p)
  | 0x10 => t.vgeluBwd a (v.b p)
  | 0x11 => t.vsiluBwd a (v.b p)
  | 0x18 => t.rnd a.expF
  | 0x19 => t.rnd a.logF
  | 0x1A => t.rnd a.rsqrt
  | 0x1B => t.rnd a.sqrt
  | 0x1C => t.rnd a.recip
  | 0x1D => t.rnd a.tanhF
  | 0x1E => t.rnd a.sigmoidF
  | 0x1F => t.rnd a.erfF
  | 0x24 =>
    let q := v.s.src0.clip p
    let row := q.2.1 + v.s.src0.size1 * (q.2.2.1 + v.s.src0.size2 * q.2.2.2)
    t.vmul v.i0 (t.vmul (v.b p) (t.vsub a (v.auxAt (4 * row))))
  | 0x48 =>
    let kept := decide (genU v.seed v.step v.s.tag i < v.s.keep)
    t.vmul a (if kept then v.i0 else Num.zero)
  | 0x50 => a.add (v.b p)
  | 0x51 => a.add (v.b p).neg
  | 0x52 => a.mul (v.b p)
  | _ => .nan

/-! ### Row opcodes (R171, R172) -/

/-- Row r of src0, and of src1 broadcast over it. -/
def VecEnv.rowA (v : VecEnv) (r : Nat) : List Num :=
  let t := v.s.src0
  (List.range t.size0).map fun k => v.a (t.posOf (r * t.size0 + k))

def VecEnv.rowB (v : VecEnv) (r : Nat) : List Num :=
  let t := v.s.src0
  (List.range t.size0).map fun k => v.b (t.posOf (r * t.size0 + k))

/-- n as an exact value. -/
def VecEnv.n (v : VecEnv) : Num := Num.ofInt v.s.src0.size0

/-- A vector of n FP32 values of the norm block, from a byte offset. -/
def VecEnv.normVec (v : VecEnv) (o : Nat) : List Num := (List.range v.s.src0.size0).map fun k => v.auxAt (o + 4 * k)

/-- softmax of a row: the outputs and L. -/
def VecEnv.softmaxRow (v : VecEnv) (r : Nat) : List Num × Num :=
  let t := v.ty
  let ts := (v.rowA r).map fun a => t.vmul v.i0 a
  let mx := treeMax ts
  if mx = .inf true then (ts.map fun _ => Num.zero, .inf true)
  else
    let es := ts.map fun x => t.rnd (t.vsub x mx).expF
    let z := t.treeAdd es
    (es.map fun e => t.vdiv e z, t.vadd mx (t.rnd z.logF))

/-- layernorm of a row: the outputs, μ and r. -/
def VecEnv.layernormRow (v : VecEnv) (r : Nat) : List Num × Num × Num :=
  let t := v.ty
  let a := v.rowA r
  let an := auxPad v.s.src0.size0
  let mu := t.vdiv (t.treeAdd a) v.n
  let d := a.map fun x => t.vsub x mu
  let rr := t.rnd (t.vadd (t.vdiv (t.treeAdd (d.map fun x => t.vmul x x)) v.n) v.i0).rsqrt
  let out := (d.zip ((v.normVec 0).zip (v.normVec an))).map fun p => t.vfma (t.vmul p.1 rr) p.2.1 p.2.2
  (out, mu, rr)

/-- rmsnorm of a row: the outputs and r. -/
def VecEnv.rmsnormRow (v : VecEnv) (r : Nat) : List Num × Num :=
  let t := v.ty
  let a := v.rowA r
  let rr := t.rnd (t.vadd (t.vdiv (t.treeAdd (a.map fun x => t.vmul x x)) v.n) v.i0).rsqrt
  ((a.zip (v.normVec 0)).map fun p => t.vmul (t.vmul p.1 rr) p.2, rr)

/-- x̂ of a row: (b − μ) × r with LAYERNORM_BWD, b × r with RMSNORM_BWD. -/
def VecEnv.xhRow (v : VecEnv) (r : Nat) : List Num :=
  let t := v.ty
  let an := auxPad v.s.src0.size0
  if v.s.opcode = 0x25 then
    let mu := v.auxAt (4 * an + 8 * r)
    let rr := v.auxAt (4 * an + 8 * r + 4)
    (v.rowB r).map fun b => t.vmul (t.vsub b mu) rr
  else
    let rr := v.auxAt (2 * an + 4 * r)
    (v.rowB r).map fun b => t.vmul b rr

/-- layernorm_bwd and rmsnorm_bwd of a row. -/
def VecEnv.normBwdRow (v : VecEnv) (r : Nat) : List Num :=
  let t := v.ty
  let an := auxPad v.s.src0.size0
  let xh := v.xhRow r
  let g := ((v.rowA r).zip (v.normVec 0)).map fun p => t.vmul p.1 p.2
  let s2 := t.vdiv (t.treeAdd ((g.zip xh).map fun p => t.vmul p.1 p.2)) v.n
  if v.s.opcode = 0x25 then
    let rr := v.auxAt (4 * an + 8 * r + 4)
    let s1 := t.vdiv (t.treeAdd g) v.n
    (g.zip xh).map fun p => t.vmul (t.vfma p.2.neg s2 (t.vsub p.1 s1)) rr
  else
    let rr := v.auxAt (2 * an + 4 * r)
    (g.zip xh).map fun p => t.vmul (t.vfma p.2.neg s2 p.1) rr

/-- The column results over all rows of a family of rows (R171, R172). -/
def VecEnv.overRows (v : VecEnv) (rows : List (List Num)) : List Num :=
  (List.range v.s.src0.size0).map fun k => v.ty.treeAdd (rows.map fun x => x.getD k .nan)

/-- Store or add column results to n FP32 values at a byte offset of the norm block (R172). -/
def VecEnv.storeCols (v : VecEnv) (o : Nat) (cs : List Num) : Nat × List Num :=
  (o, if v.s.imm0 = 0 then cs else ((v.normVec o).zip cs).map fun p => rnd32 (p.1.add p.2))

/-! ### What a slot writes -/

/-- The results of a VECTOR slot: destination values by row, FP32 vectors of the auxiliary tensor by byte offset, bytes of the
hyperparameter block by byte offset, and its events. -/
structure VecRes where
  rows : List (List Num) := []
  aux : List (Nat × List Num) := []
  block : List (Nat × Bytes) := []
  skipped : Bool := false
  nonfinite : Bool := false
  deriving DecidableEq, Repr

/-- Rows of the source. -/
def VecEnv.allRows (v : VecEnv) : List Nat := List.range v.s.src0.rows

/-- The elementwise result. -/
def VecEnv.elementwise (v : VecEnv) : VecRes :=
  let d := v.s.dst
  { rows := (List.range d.rows).map fun r => (List.range d.size0).map fun k =>
      let i := r * d.size0 + k
      v.elem i (d.posOf i) }

/-- Row-normalising opcodes (R171). -/
def VecEnv.norms (v : VecEnv) : VecRes :=
  let an := auxPad v.s.src0.size0
  match v.s.opcode with
  | 0x20 =>
    let rs := v.allRows.map v.softmaxRow
    { rows := rs.map Prod.fst, aux := if v.s.aux = 0 then [] else [(0, rs.map Prod.snd)] }
  | 0x21 =>
    let rs := v.allRows.map v.layernormRow
    { rows := rs.map Prod.fst, aux := [(4 * an, rs.flatMap fun p => [p.2.1, p.2.2])] }
  | 0x22 =>
    let rs := v.allRows.map v.rmsnormRow
    { rows := rs.map Prod.fst, aux := [(2 * an, rs.map Prod.snd)] }
  | _ =>
    let prods := v.allRows.map fun r => ((v.rowA r).zip (v.xhRow r)).map fun p => v.ty.vmul p.1 p.2
    let dg := v.overRows prods
    { rows := v.allRows.map v.normBwdRow,
      aux := if v.s.opcode = 0x25 then
          [v.storeCols (2 * an) dg, v.storeCols (3 * an) (v.overRows (v.allRows.map v.rowA))]
        else [v.storeCols an dg] }

/-- One value per row (R170). -/
def VecEnv.perRow (v : VecEnv) : VecRes :=
  let t := v.ty
  { rows := v.allRows.map fun r =>
      [match v.s.opcode with
       | 0x23 => t.treeAdd (((v.rowA r).zip (v.rowB r)).map fun p => t.vmul p.1 p.2)
       | 0x27 => t.treeAdd (v.rowA r)
       | _ => treeMax (v.rowA r)] }

/-- CSUM: written or added (R172). -/
def VecEnv.csum (v : VecEnv) : VecRes :=
  let cs := v.overRows (v.allRows.map v.rowA)
  { rows := [if v.s.imm0 = 0 then cs
      else (cs.zip (List.range cs.length)).map fun p => (v.m.tdAt v.s.dst (p.2, 0, 0, 0)).add p.1] }

/-- SUMSQ. -/
def VecEnv.sumsq (v : VecEnv) : VecRes :=
  { rows := [[v.ty.treeAdd (v.allRows.flatMap fun r => (v.rowA r).map fun a => v.ty.vmul a a)]] }

/-! ### The optimizer (R175 to R179) and the clip factor (R180) -/

/-- Bits of field k of the hyperparameter block. -/
def VecEnv.hyperBits (v : VecEnv) (k : Nat) : Nat := leNat (v.m.spadRead (v.s.src1.addr + 4 * k) 4)

/-- FP32 field k of the hyperparameter block. -/
def VecEnv.hyper (v : VecEnv) (k : Nat) : Num := Fmt.decode .fp32 (v.hyperBits k)

/-- Flag k of the hyperparameter block: 0 decoupled, 1 Nesterov, 2 apply clip_factor. -/
def VecEnv.flag (v : VecEnv) (k : Nat) : Bool := bit (v.hyperBits 12) k

/-- The gradient of element e after scaling and clipping. -/
def VecEnv.scaledGrad (v : VecEnv) (g : Num) : Num :=
  let t := v.ty
  let g := t.vmul g (v.hyper 7)
  if v.flag 2 then t.vmul g (v.hyper 9) else g

/-- adam (R177): the new p, m, v of one element. -/
def VecEnv.adamElem (v : VecEnv) (gIn p mm vv : Num) : Num × Num × Num :=
  let t := v.ty
  let wd := v.hyper 4
  let g := v.scaledGrad gIn
  let g := if !v.flag 0 && !wd.isZero then t.vfma wd p g else g
  let om1 := t.vsub vOne (v.hyper 1)
  let om2 := t.vsub vOne (v.hyper 2)
  let mm := t.vfma (v.hyper 1) mm (t.vmul om1 g)
  let vv := t.vfma (v.hyper 2) vv (t.vmul om2 (t.vmul g g))
  let u := t.vdiv (t.vmul mm (v.hyper 5)) (t.vadd (t.rnd (t.vmul vv (v.hyper 6)).sqrt) (v.hyper 3))
  let u := if v.flag 0 then t.vfma wd p u else u
  (t.vfma (v.hyper 0).neg u p, mm, vv)

/-- sgdm (R178): the new p and b of one element. -/
def VecEnv.sgdmElem (v : VecEnv) (gIn p b : Num) : Num × Num :=
  let t := v.ty
  let wd := v.hyper 4
  let g := v.scaledGrad gIn
  let g := if !wd.isZero then t.vfma wd p g else g
  let b := t.vfma (v.hyper 1) b (t.vmul (t.vsub vOne (v.hyper 2)) g)
  let u := if v.flag 1 then t.vfma (v.hyper 1) b g else b
  (t.vfma (v.hyper 0).neg u p, b)

/-- Destination rows of a list of values in linear order. -/
def VecSlot.destRows (s : VecSlot) (xs : List Num) : List (List Num) :=
  if s.noDst then [] else chunksOf s.dst.size0 s.dst.rows xs

/-- ADAM and SGDM over the whole shard (R176, R179). -/
def VecEnv.optimizer (v : VecEnv) : VecRes :=
  let n := v.s.src0.count
  let ae := auxPad n
  let st := fun (o e : Nat) => v.auxAt (o + 4 * e)
  if v.hyperBits 11 = 1 then
    { rows := v.s.destRows ((List.range n).map fun e => st 0 e), skipped := true }
  else if v.s.opcode = 0x40 then
    let rs := (List.range n).map fun e => v.adamElem (v.a (v.s.src0.posOf e)) (st 0 e) (st ae e) (st (2 * ae) e)
    { rows := v.s.destRows (rs.map Prod.fst),
      aux := [(0, rs.map Prod.fst), (ae, rs.map fun p => p.2.1), (2 * ae, rs.map fun p => p.2.2)] }
  else
    let rs := (List.range n).map fun e => v.sgdmElem (v.a (v.s.src0.posOf e)) (st 0 e) (st ae e)
    { rows := v.s.destRows (rs.map Prod.fst), aux := [(0, rs.map Prod.fst), (ae, rs.map Prod.snd)] }

/-- FP32 bytes of a value, by RNE. -/
def fp32Bytes (x : Num) : Bytes := natLe 4 (Fmt.encode .fp32 none x).bits

/-- CLIP_FACTOR (R180). -/
def VecEnv.clipFactor (v : VecEnv) : VecRes :=
  let q := v.m.tdAt v.s.src0 (0, 0, 0, 0)
  let r64 := Fmt.rnd .fp64
  if !q.finite then
    { block := [(36, fp32Bytes Num.zero ++ fp32Bytes .nan), (44, natLe 4 1)], nonfinite := true }
  else
    let n := r64 q.sqrt
    let mx := v.hyper 8
    let off := !(mx.finite && Num.zero.lt mx) || (!n.isNan && !mx.lt n)
    let f := if off then vOne else r64 (mx.div n)
    { block := [(36, fp32Bytes f ++ fp32Bytes n), (44, natLe 4 0)] }

/-- The results of a slot by its shape (R170). -/
def VecEnv.compute (v : VecEnv) : VecRes :=
  match (vOp? v.s.opcode).map VOp.shape with
  | some .elementwise => v.elementwise
  | some .rowNorm => v.norms
  | some .perRow => v.perRow
  | some .perColumn => v.csum
  | some .single => v.sumsq
  | some .optimizer => v.optimizer
  | some .clip => v.clipFactor
  | none => {}

/-! ### Dividing the work, converting and writing (R159, R169) -/

/-- Selected dies, ascending. -/
def VecSlot.dieList (s : VecSlot) : List Nat := (List.range 4).filter fun d => bit s.dies d

/-- The die that converts element k of destination row r (R159; column, scalar and clip results on the lowest selected die,
log 14). DESIGN CHOICE: a per-row result under SRC0_TAKEUP, whose row two vector engines hold, is converted by V2, or by V0 for an odd
row with TAKEUP_SPLIT (log 72). -/
def VecSlot.dieAt (s : VecSlot) (r k : Nat) : Nat :=
  let ds := s.dieList
  let low := ds.headD 0
  let byRows := match (vOp? s.opcode).map VOp.shape with
    | some .elementwise | some .rowNorm | some .perRow | some .optimizer => true
    | _ => false
  if !byRows then low
  else if s.takeup then
    let side := k / 16 % 2
    if s.dies = 15 ∧ r % s.dst.size1 % 2 = 1 then side else 2 + side
  else ds.getD (r * ds.length / s.dst.rows) low

/-- Count the saturations and the NaNs of one row at the islands that converted its elements. -/
def Mach.countRow (m : Mach) (s : VecSlot) (c : CtxId) (us : Nat → Option Nat) (r : Nat) (xs : List Num) : Mach :=
  let k := convRow s.dst.format (fun i => us (r * s.dst.size0 + i)) xs
  let of_ := fun (d : Nat) (l : List Bool) => ((l.zip (List.range l.length)).filter fun p => p.1 && decide (s.dieAt r p.2 = d)).length
  (List.range 4).foldl (fun m d =>
    (m.cnt 0x0001 (23 * d + 17) (some c) (of_ d k.2.1)).cnt 0x0002 (23 * d + 17) (some c) (of_ d k.2.2)) m

/-- Write destination rows from row r on. -/
def Mach.writeVecRows (m : Mach) (s : VecSlot) (c : CtxId) (us : Nat → Option Nat) : Nat → List (List Num) → Mach
  | _, [] => m
  | r, xs :: rest =>
    let m' := Mach.writeVecRows m s c us (r + 1) rest
    let b := (convRow s.dst.format (fun i => us (r * s.dst.size0 + i)) xs).1
    (m'.countRow s c us r xs).spadPut (s.dst.rowAddr (m.indexOf s.dst) s.dst.addr r) b (some c)

/-- Write everything a slot computed. -/
def Mach.writeVec (m : Mach) (c : CtxId) (v : VecEnv) : Mach :=
  let r := v.compute
  let us := fun i => if v.s.stoch then some (genU v.seed v.step v.s.tag i) else none
  let m := m.writeVecRows v.s c us 0 r.rows
  let m := r.aux.foldl (fun m p => m.spadPut (v.s.aux + p.1) (p.2.flatMap fp32Bytes) (some c)) m
  let m := r.block.foldl (fun m p => m.spadPut (v.s.src1.addr + p.1) p.2 (some c)) m
  let low := 23 * v.s.dieList.headD 0 + 17
  let m := if r.skipped then m.cnt 0x3000 low (some c) else m
  if r.nonfinite then m.cnt 0x3001 low (some c) else m

/-! ### Start (R134, R161, R183, R184) -/

/-- Fault ranges: destination, auxiliary tensor (R183). -/
def VecSlot.faultRanges (s : VecSlot) : FaultRange × FaultRange :=
  let d := s.dst.span s.dst.addr
  (if s.noDst then noRange else spadRange d.1 d.2,
   match s.auxRange with
   | p :: _ => spadRange p.1 p.2
   | [] => noRange)

/-- The start checks of R183. -/
def Mach.checkVec (m : Mach) (c : CtxId) (s : VecSlot) : Option (Status × Nat) :=
  if !(m.vecWindow c s) then some (.windowViolation, 0)
  else match m.badSpads (s.placed.flatMap Td.indexRange) with
    | some w => some (.uncorrectable, spadIsland (w * 8))
    | none => (s.placed.findSome? fun t => m.badIndex t).map fun p => (.indexOutOfRange, p)

/-- Ranges of the auxiliary tensor that the opcode reads. -/
def VecSlot.auxReads (s : VecSlot) : List (Nat × Nat) :=
  let n := s.src0.size0
  let r := s.src0.rows
  let an := auxPad n
  let v := fun (o k : Nat) => (s.aux + o, 4 * k)
  match s.opcode with
  | 0x06 | 0x24 | 0x40 | 0x41 => s.auxRange
  | 0x21 => [v 0 n, v an n]
  | 0x22 => [v 0 n]
  | 0x25 => [v 0 n, v (4 * an) (2 * r)] ++ (if s.imm0 = 0 then [] else [v (2 * an) n, v (3 * an) n])
  | 0x26 => [v 0 n, v (2 * an) r] ++ (if s.imm0 = 0 then [] else [v an n])
  | _ => []

/-- Every range a slot reads. -/
def Mach.vecReads (m : Mach) (s : VecSlot) : List (Nat × Nat) :=
  let rowsOf := fun (t : Td) => (List.range t.rows).map fun r => (t.rowAddr (m.indexOf t) t.addr r, t.rowBytes)
  match vOp? s.opcode with
  | none => []
  | some o =>
    (s.placed.flatMap Td.indexRange) ++ (if s.takeup then [] else rowsOf s.src0) ++ (if o.src1 then rowsOf s.src1 else []) ++ s.auxReads ++
      (if s.opcode = 0x30 ∧ s.imm0 ≠ 0 then rowsOf s.dst else [])

/-- Every range a slot writes. -/
def Mach.vecWrites (m : Mach) (s : VecSlot) : List (Nat × Nat) :=
  (if s.noDst ∨ s.opcode = 0x42 then []
   else (List.range s.dst.rows).map fun r => (s.dst.rowAddr (m.indexOf s.dst) s.dst.addr r, s.dst.rowBytes)) ++ s.sideWrites

/-- Compute and write a slot, or fault it at an uncorrectable word it reads (R80). -/
def Mach.runVec (m : Mach) (c : CtxId) (q : QSlot) (up : Option TakeUp) : Mach × Bool :=
  let s := parseVec q.bytes
  match m.badSpadIn (m.vecReads s) (m.vecWrites s) with
  | some w =>
    let i := spadIsland (w * 8)
    let r := s.faultRanges
    (((m.spadUe w (some c)).undefineVec c s).failSlot c q
      { status := .uncorrectable, detail := i, range0 := r.1, range1 := r.2, island := i }, false)
  | none =>
    let m := m.readSpads (m.vecReads s) (some c)
    (m.writeVec c ⟨m, s, up, q.seed.toNat, q.step.toNat⟩, true)

/-- A started consumer whose ARRAY slot is suspended is suspended with it and uses no vector engine (R74). -/
def Mach.vecParked (m : Mach) (j : VecJob) : Bool :=
  m.arrays.any fun a => decide (a.c = j.c ∧ a.slot.uid = j.slot.uid) && a.suspended

/-- The dies whose vector engine runs a slot: those of DIES, and for CLIP_FACTOR the lowest of them (R159, R180). -/
def VecSlot.runDies (s : VecSlot) : List Nat := if s.opcode = 0x42 then s.dieList.take 1 else s.dieList

/-- The islands a slot works in: its vector engines, the way between them, and the way to its operands and results (R9, R10, R14). -/
def VecSlot.path (s : VecSlot) : List IslandId :=
  let ds := s.runDies
  (ds.flatMap fun d => [island (23 * d + 17), island (23 * d + 18)]) ++ (ds.flatMap fun d => ds.flatMap fun e => diePath d e) ++
    ((s.placed.flatMap Td.ranges) ++ s.auxRange).flatMap fun r =>
      spadAt r.1 r.2 ++ ds.flatMap fun d => diePath d (bits r.1 30 29)

/-- The vector engine of a die runs a slot. -/
def Mach.vecBusy (m : Mach) (d : Nat) : Bool :=
  m.vecs.any fun j => !m.vecParked j && (parseVec j.slot.bytes).runDies.contains d

/-- A context's ready VECTOR slot: at the head, startable, and the context's previous VECTOR slot has committed (R161). -/
def Mach.vecReady (m : Mach) (c : CtxId) : Option QSlot :=
  if m.vecs.any fun j => decide (j.c = c) then none else m.startable c .vector

/-- The class of a context's ready VECTOR slot, where it wants one of some dies. -/
def Mach.vecClass (m : Mach) (c : CtxId) (dies : List Nat) : Option Nat :=
  match m.vecReady c with
  | some q => if dies.any fun d => (parseVec q.bytes).runDies.contains d then some q.cls else none
  | none => none

/-- The vector engines take a context's head slot: PRIMARY before SECONDARY before FILL, equal classes by turns (R132). -/
def Mach.vecTakes (m : Mach) (c : CtxId) (q : QSlot) : Bool :=
  let s := parseVec q.bytes
  let order := [1, 2, 3, 4].map fun k => (Fin.ofNat 4 (m.lastVec.val + k) : CtxId)
  decide (m.pwr.modState = .active) && !m.goose.rotating && !m.tilesOwed (s.runDies.map fun d => island (23 * d + 17)) &&
    (s.runDies.all fun d => !m.vecBusy d) && m.reachable s.path &&
    (allCtx.all fun d => match m.vecClass d s.runDies with
      | some k => decide (q.cls ≤ k)
      | none => true) &&
    decide (order.find? (fun d => decide (m.vecClass d s.runDies = some q.cls)) = some c)

/-- The first condemned vector island of a slot (R337). -/
def Mach.vecRefused (m : Mach) (s : VecSlot) : Option Nat :=
  (s.runDies.map fun d => 23 * d + 17).find? fun i => (m.islands[island i]).condemned

/-- A consumer starts: it drains its stream from the queues (R72). -/
def Mach.drainStream (m : Mach) (c : CtxId) (uid : Nat) : Mach :=
  { m with takeups := m.takeups.map fun t => if t.c = c ∧ t.uid = uid then { t with held := Vector.replicate 4 0 } else t }

/-- The head VECTOR slot of a context starts. -/
def Mach.startVec (m : Mach) (c : CtxId) (q : QSlot) : Mach :=
  let s := parseVec q.bytes
  let r := s.faultRanges
  let m := { ((m.takeHead c .vector).wake s.path) with lastVec := c }
  match m.vecRefused s with
  | some i => m.failSlot c q { status := .uncorrectable, detail := i, range0 := r.1, range1 := r.2, island := i }
  | none => match m.checkVec c s with
    | some (.uncorrectable, i) => (m.readIndices c s.placed).failSlot c q
        { status := .uncorrectable, detail := i, range0 := r.1, range1 := r.2, island := i }
    | some (st, d) => m.failSlot c q { status := st, detail := d, range0 := r.1, range1 := r.2 }
    | none =>
      if s.takeup then { (m.drainStream c q.uid) with vecs := m.vecs ++ [⟨c, q, false⟩] }
      else
        let p := m.runVec c q none
        if p.2 then { p.1 with vecs := p.1.vecs ++ [⟨c, q, true⟩] } else p.1

/-- Remove a context's VECTOR job and the stream it consumed. -/
def Mach.dropVec (m : Mach) (c : CtxId) (uid : Nat) : Mach :=
  { m with vecs := m.vecs.filter fun j => !decide (j.c = c ∧ j.slot.uid = uid),
           takeups := m.takeups.filter fun t => !decide (t.c = c ∧ t.uid = uid) }

/-- A parity error of the vector engine of die d stops a running slot (R184). -/
def Mach.vecParity (m : Mach) (c : CtxId) (j : VecJob) (d : DieId) : Mach :=
  let s := parseVec j.slot.bytes
  if !s.runDies.contains d.val then m
  else
    let i := 23 * d.val + 17
    let r := s.faultRanges
    (((m.cnt 0x3002 i (some c)).dropVec c j.slot.uid).undefineVec c s).failSlot c j.slot
      { status := .uncorrectable, detail := i, range0 := r.1, range1 := r.2, island := i }

/-- The row of one opcode: its ready slot starts, or its running slot meets a parity error. -/
def vectorRow (code : Nat) (c : CtxId) (parity : Option DieId) (s : State) : Host.Outcome State Fault Refusal :=
  runs s fun m =>
    match m.vecs.find? fun j => decide (j.c = c) && decide ((parseVec j.slot.bytes).opcode = code) with
    | some j => match parity with
      | some d => m.vecParity c j d
      | none => m
    | none => match parity, m.vecReady c with
      | none, some q => if (parseVec q.bytes).opcode = code ∧ m.vecTakes c q then m.startVec c q else m
      | _, _ => m

/-! ### The rows of the table (R170) -/

/-- COPY (R170): out = a. -/
def execVectorCopy (c : CtxId) (parity : Option DieId) (s : State) : Host.Outcome State Fault Refusal :=
  vectorRow 0x01 c parity s

/-- ADD (R170): a + b. -/
def execAdd (c : CtxId) (parity : Option DieId) (s : State) : Host.Outcome State Fault Refusal :=
  vectorRow 0x02 c parity s

/-- SUB (R170): a − b. -/
def execSub (c : CtxId) (parity : Option DieId) (s : State) : Host.Outcome State Fault Refusal :=
  vectorRow 0x03 c parity s

/-- MUL (R170): a × b. -/
def execMul (c : CtxId) (parity : Option DieId) (s : State) : Host.Outcome State Fault Refusal :=
  vectorRow 0x04 c parity s

/-- DIV (R170): a / b. -/
def execDiv (c : CtxId) (parity : Option DieId) (s : State) : Host.Outcome State Fault Refusal :=
  vectorRow 0x05 c parity s

/-- FMA (R170): fma(a, b, c). -/
def execFma (c : CtxId) (parity : Option DieId) (s : State) : Host.Outcome State Fault Refusal :=
  vectorRow 0x06 c parity s

/-- AXPBY (R170): fma(i0, a, i1 × b). -/
def execAxpby (c : CtxId) (parity : Option DieId) (s : State) : Host.Outcome State Fault Refusal :=
  vectorRow 0x07 c parity s

/-- MAX (R170): max(a, b), R167. -/
def execMax (c : CtxId) (parity : Option DieId) (s : State) : Host.Outcome State Fault Refusal :=
  vectorRow 0x08 c parity s

/-- MIN (R170): min(a, b), R167. -/
def execMin (c : CtxId) (parity : Option DieId) (s : State) : Host.Outcome State Fault Refusal :=
  vectorRow 0x09 c parity s

/-- SCALE (R170): fma(a, i0, i1). -/
def execScale (c : CtxId) (parity : Option DieId) (s : State) : Host.Outcome State Fault Refusal :=
  vectorRow 0x0A c parity s

/-- CAST (R170): the conversion of R169 alone. -/
def execCast (c : CtxId) (parity : Option DieId) (s : State) : Host.Outcome State Fault Refusal :=
  vectorRow 0x0B c parity s

/-- RELU (R170): a where a > 0, else +0. -/
def execRelu (c : CtxId) (parity : Option DieId) (s : State) : Host.Outcome State Fault Refusal :=
  vectorRow 0x0C c parity s

/-- GELU (R170): (a × 0.5) × (1 + erf(a × κ)). -/
def execGelu (c : CtxId) (parity : Option DieId) (s : State) : Host.Outcome State Fault Refusal :=
  vectorRow 0x0D c parity s

/-- SILU (R170): a × sigmoid(a). -/
def execSilu (c : CtxId) (parity : Option DieId) (s : State) : Host.Outcome State Fault Refusal :=
  vectorRow 0x0E c parity s

/-- RELU_BWD (R170): a where b > 0, else +0. -/
def execReluBwd (c : CtxId) (parity : Option DieId) (s : State) : Host.Outcome State Fault Refusal :=
  vectorRow 0x0F c parity s

/-- GELU_BWD (R170): a × (Φ + b × φ). -/
def execGeluBwd (c : CtxId) (parity : Option DieId) (s : State) : Host.Outcome State Fault Refusal :=
  vectorRow 0x10 c parity s

/-- SILU_BWD (R170): a × (s × (1 + b × (1 − s))). -/
def execSiluBwd (c : CtxId) (parity : Option DieId) (s : State) : Host.Outcome State Fault Refusal :=
  vectorRow 0x11 c parity s

/-- EXP (R170): exp(a). -/
def execExp (c : CtxId) (parity : Option DieId) (s : State) : Host.Outcome State Fault Refusal :=
  vectorRow 0x18 c parity s

/-- LOG (R170): log(a). -/
def execLog (c : CtxId) (parity : Option DieId) (s : State) : Host.Outcome State Fault Refusal :=
  vectorRow 0x19 c parity s

/-- RSQRT (R170): 1 / √a. -/
def execRsqrt (c : CtxId) (parity : Option DieId) (s : State) : Host.Outcome State Fault Refusal :=
  vectorRow 0x1A c parity s

/-- SQRT (R170): √a. -/
def execSqrt (c : CtxId) (parity : Option DieId) (s : State) : Host.Outcome State Fault Refusal :=
  vectorRow 0x1B c parity s

/-- RECIP (R170): 1 / a. -/
def execRecip (c : CtxId) (parity : Option DieId) (s : State) : Host.Outcome State Fault Refusal :=
  vectorRow 0x1C c parity s

/-- TANH (R170): tanh(a). -/
def execTanh (c : CtxId) (parity : Option DieId) (s : State) : Host.Outcome State Fault Refusal :=
  vectorRow 0x1D c parity s

/-- SIGMOID (R170): sigmoid(a). -/
def execSigmoid (c : CtxId) (parity : Option DieId) (s : State) : Host.Outcome State Fault Refusal :=
  vectorRow 0x1E c parity s

/-- ERF (R170): erf(a). -/
def execErf (c : CtxId) (parity : Option DieId) (s : State) : Host.Outcome State Fault Refusal :=
  vectorRow 0x1F c parity s

/-- SOFTMAX (R170): softmax of each row, R171. -/
def execSoftmax (c : CtxId) (parity : Option DieId) (s : State) : Host.Outcome State Fault Refusal :=
  vectorRow 0x20 c parity s

/-- LAYERNORM (R170): layernorm of each row, R171. -/
def execLayernorm (c : CtxId) (parity : Option DieId) (s : State) : Host.Outcome State Fault Refusal :=
  vectorRow 0x21 c parity s

/-- RMSNORM (R170): rmsnorm of each row, R171. -/
def execRmsnorm (c : CtxId) (parity : Option DieId) (s : State) : Host.Outcome State Fault Refusal :=
  vectorRow 0x22 c parity s

/-- ROWDOT (R170): tree(a × b, add) over the row. -/
def execRowdot (c : CtxId) (parity : Option DieId) (s : State) : Host.Outcome State Fault Refusal :=
  vectorRow 0x23 c parity s

/-- SOFTMAX_BWD (R170): i0 × (b × (a − D)). -/
def execSoftmaxBwd (c : CtxId) (parity : Option DieId) (s : State) : Host.Outcome State Fault Refusal :=
  vectorRow 0x24 c parity s

/-- LAYERNORM_BWD (R170): R171, R172. -/
def execLayernormBwd (c : CtxId) (parity : Option DieId) (s : State) : Host.Outcome State Fault Refusal :=
  vectorRow 0x25 c parity s

/-- RMSNORM_BWD (R170): R171, R172. -/
def execRmsnormBwd (c : CtxId) (parity : Option DieId) (s : State) : Host.Outcome State Fault Refusal :=
  vectorRow 0x26 c parity s

/-- RSUM (R170): tree(a, add) over the row. -/
def execRsum (c : CtxId) (parity : Option DieId) (s : State) : Host.Outcome State Fault Refusal :=
  vectorRow 0x27 c parity s

/-- RMAX (R170): tree(a, max) over the row. -/
def execRmax (c : CtxId) (parity : Option DieId) (s : State) : Host.Outcome State Fault Refusal :=
  vectorRow 0x28 c parity s

/-- CSUM (R170): tree over rows, R172. -/
def execCsum (c : CtxId) (parity : Option DieId) (s : State) : Host.Outcome State Fault Refusal :=
  vectorRow 0x30 c parity s

/-- SUMSQ (R170): tree(a × a, add). -/
def execSumsq (c : CtxId) (parity : Option DieId) (s : State) : Host.Outcome State Fault Refusal :=
  vectorRow 0x31 c parity s

/-- ADAM (R170): R175 to R177, R179. -/
def execAdam (c : CtxId) (parity : Option DieId) (s : State) : Host.Outcome State Fault Refusal :=
  vectorRow 0x40 c parity s

/-- SGDM (R170): R175, R176, R178, R179. -/
def execSgdm (c : CtxId) (parity : Option DieId) (s : State) : Host.Outcome State Fault Refusal :=
  vectorRow 0x41 c parity s

/-- CLIP_FACTOR (R170): R180. -/
def execClipFactor (c : CtxId) (parity : Option DieId) (s : State) : Host.Outcome State Fault Refusal :=
  vectorRow 0x42 c parity s

/-- DROPOUT (R170): R174. -/
def execDropout (c : CtxId) (parity : Option DieId) (s : State) : Host.Outcome State Fault Refusal :=
  vectorRow 0x48 c parity s

/-- IADD (R170): a + b, exact. -/
def execIadd (c : CtxId) (parity : Option DieId) (s : State) : Host.Outcome State Fault Refusal :=
  vectorRow 0x50 c parity s

/-- ISUB (R170): a − b, exact. -/
def execIsub (c : CtxId) (parity : Option DieId) (s : State) : Host.Outcome State Fault Refusal :=
  vectorRow 0x51 c parity s

/-- IMUL (R170): a × b, exact. -/
def execImul (c : CtxId) (parity : Option DieId) (s : State) : Host.Outcome State Fault Refusal :=
  vectorRow 0x52 c parity s

/-- VECTOR_COMMIT (R147, R173, R181): the slot's last write is visible. A consumer of a take-up stream ends when the stream is
whole; of a FROZEN slot's stream it reads and writes nothing; of a stream resumed from altered bytes its results are
undefined (R73). A window that the halt between has taken from the context ends it (R22). -/
def execVectorCommit (c : CtxId) (s : State) : Host.Outcome State Fault Refusal :=
  runs s fun m =>
    match m.vecs.find? fun j => decide (j.c = c) with
    | none => m
    | some j =>
      let v := parseVec j.slot.bytes
      let u := m.takeupOf c j.slot.uid
      if !m.mayCommit c j.slot ∨ (!j.computed ∧ !u.whole) then m
      else if j.computed ∨ u.frozen then (m.dropVec c j.slot.uid).commitSlot c j.slot v.faultRanges
      else if u.tainted then ((m.dropVec c j.slot.uid).undefineVec c v).commitSlot c j.slot v.faultRanges
      else if !m.vecWindow c v then (m.dropVec c j.slot.uid).failSlot c j.slot
        { status := .windowViolation, range0 := v.faultRanges.1, range1 := v.faultRanges.2 }
      else m.over v.path fun m =>
        let p := (m.dropVec c j.slot.uid).runVec c j.slot (some u)
        if p.2 then p.1.commitSlot c j.slot v.faultRanges else p.1

end Sys2Proof.Machine
end

