-- ==== Sys2Proof/Machine/Control.lean ====
section
/-! DEFINITION. Control of a context (R143 to R151): posted tokens, the stall monitor, halt, containment, abort, reset, enable;
its windows (R81, R82, R87, R88); its completion ring (R284 to R286). -/

namespace Sys2Proof.Machine

open Sys2Proof

/-! ### Posted tokens (R144) -/

/-- The states of the module in which a write that starts work is applied: at once, after a wake from QUIET, or not at all
(R385). -/
def Mach.awake (m : Mach) : Option Mach :=
  match m.pwr.modState with
  | .active | .idle => some m
  | .quiet => some m.leaveQuiet
  | _ => none

/-- A write that R385 lets wake the module from QUIET. -/
def Wr.waking (m : Mach) (f : Mach → Wr) : Wr :=
  match m.awake with
  | some m => f m
  | none => .err abState

/-- A context HALTED after a halt: RESUME is possible (R149). -/
def Ctx.resumable (x : Ctx) : Bool := decide (x.st = .halted) && decide (x.cause = .halt)

/-- A write of token_post. -/
def wrTokenPost (c : CtxId) : Writer := fun m _ v =>
  let n := v.toNum
  let count := bits n 31 16
  let e := bits n 14 12
  let id := bits n 11 0
  let x := m.ctxs[c]
  .guard (decide (count = 0) || bit n 15 || decide (6 ≤ e) || (decide (m.grade = .n) && decide (e = 4)) ||
      decide (65535 < x.tokens e id + count)) abRange
    (.guard (!(decide (x.st = .enabled) || x.resumable)) abState
      (.waking m fun m => .ok (m.modCtx c fun x => x.setTokens e id (x.tokens e id + count))))

/-- TOKEN_POST (R144). -/
def execTokenPost (ch : Channel) (c : CtxId) (data : Bytes) (s : State) : Host.Outcome State Fault Refusal :=
  runs s fun m => m.dictWrite ch (ctxIdx c 3) 5 data (wrTokenPost c)

/-! ### The stall monitor (R143) -/

/-- A blocked head: engine (7 for the command queue), word_seq, the tables and IDs it waits for, and its word's step and
ordered flag. -/
structure BlockedHead where
  eng : Nat
  seq : BitVec 16
  ids : List (Nat × Nat)
  step : BitVec 64
  ordered : Bool
  deriving DecidableEq, Repr

/-- What stands at the head of a queue. -/
inductive HeadState where
  | empty
  | blocked (h : BlockedHead)
  | free
  deriving DecidableEq, Repr

/-- The command queue head: blocked on SYNC waits where it passes its checks and they do not hold, whether or not its queues have
room. -/
def Mach.cmdHead (m : Mach) (c : CtxId) : HeadState :=
  let x := m.ctxs[c]
  match x.cmdQ with
  | [] => .empty
  | send :: _ =>
    if x.stepHold ≠ .none then .free
    else match frame send with
      | none => .free
      | some (b, _) =>
        let w := wordOf b
        if w.seq = x.expected ∧ (wordChecks m.grade w).isNone ∧ !x.waitsHold w.waits then
          .blocked ⟨7, w.seq, w.waits, x.step, w.ordered⟩
        else .free

/-- An engine queue's head: blocked on its waits or by FENCE. -/
def Ctx.engineHead (x : Ctx) (e : Eng) : HeadState :=
  match x.queues[e.num] with
  | [] => .empty
  | q :: _ =>
    let ws := (waitIds (ctlOf q.bytes)).map fun t => (e.table, t)
    if x.fenceHolds q.uid && x.waitsHold ws then .free
    else .blocked ⟨e.num.val, q.seq, ws, q.step, x.words.any fun w => decide (w.uid = q.uid) && w.isOrdered⟩

/-- An ARRAY slot that counts as blocked: suspended, or stalled on a take-up queue whose consumer has not started. -/
def Mach.arrayStalled (m : Mach) (j : ArrayJob) : Bool :=
  let s := parseArray j.slot.bytes
  j.suspended || (s.takeup && !m.consumerStarted j.c j.slot.uid && decide (j.done < j.total) &&
    match m.rowStep j with
    | .stalled _ => true
    | _ => false)

/-- No slot of a context is running, but for what counts as blocked. -/
def Mach.nothingRuns (m : Mach) (c : CtxId) : Bool :=
  !(m.mv.jobs.any (fun j => decide (j.c = c)) || m.vecs.any (fun j => decide (j.c = c)) ||
    m.audits.any (fun j => decide (j.c = c)) || m.drover.jobs.any (fun j => decide (j.c = c)) ||
    m.shut.colls.any (fun k => decide (k.key.ctx = c))) &&
  m.arrays.all fun j => decide (j.c ≠ c) || m.arrayStalled j

/-- A packet is a TOKEN for a context of this module. -/
def Mach.tokenOf (m : Mach) (c : CtxId) (p : Packet) : Bool :=
  let h := hdrOf p
  decide (h.ty = tyToken) && decide (h.dst = m.net.own) && decide (m.rxCtx h = some c)

/-- TOKEN packets for a context inside the module that have not been applied: in input buffers, on the way from the local engines, at
their consumer (R143, R146, R151). -/
def Mach.tokensInside (m : Mach) (c : CtxId) : List Packet :=
  (m.links.toList.flatMap (fun k => k.arrived ++ k.inBuf.map Held.pkt) ++ m.net.inject.map Held.pkt ++ m.net.localRx.map Rx.pkt).filter
    (m.tokenOf c)

/-- A token of a context is in transit inside the module. -/
def Mach.tokenInTransit (m : Mach) (c : CtxId) : Bool := !(m.tokensInside c).isEmpty

/-- The oldest of some blocked heads, by word_seq; of equal ones that of the command queue, else of the lowest-numbered engine (DESIGN
CHOICE, log 80: R143 does not say which). -/
def oldestHead : List BlockedHead → Option BlockedHead
  | [] => none
  | h :: rest => match oldestHead rest with
    | none => some h
    | some g => if seqBefore 32767 g.seq h.seq then some g else some h

/-- A 16-byte entry of the Heddle dump; its layout is not given (log 7). -/
def Ctx.dumpEntry (x : Ctx) (h : BlockedHead) : Bytes :=
  let b := Config.layout 0x2808 h.eng (h.seq.toNat :: h.ids.flatMap fun w => [w.2, x.tokens w.1 w.2])
  (b ++ List.replicate 16 0).take 16

/-- TOKEN_DEADLOCK (R143): for stall_limit nothing of an ENABLED context has been able to move. -/
def execTokenDeadlock (c : CtxId) (s : State) : Host.Outcome State Fault Refusal :=
  runs s fun m =>
    let x := m.ctxs[c]
    let heads := m.cmdHead c :: allEng.map x.engineHead
    let blocked := heads.filterMap fun h => match h with
      | .blocked b => some b
      | _ => none
    if x.st ≠ .enabled ∨ heads.contains .free ∨ !m.nothingRuns c ∨ m.tokenInTransit c then m
    else match oldestHead blocked with
      | none => m
      | some h =>
        let dump := blocked.flatMap x.dumpEntry
        let detail := (blocked.map fun b => 2 ^ b.eng).sum
        ((m.modCtx c fun x => { x with heddleDump := dump }).cnt 0xE004 132 (some c)).faultCtx c
          ⟨BitVec.ofNat 8 Status.tokenDeadlock.code, BitVec.ofNat 32 detail, h.eng, h.seq, 0, h.step, h.ordered, noRange, noRange,
           0xFF, m.now⟩

/-! ### Halt, containment, resume (R146, R148, R149) -/

/-- A write of halt: only an ENABLED context acts on it (R149, R385). -/
def Mach.haltCtx (m : Mach) (c : CtxId) : Mach :=
  if (m.ctxs[c]).st = .enabled then m.setCtxState c .halting .halt else m

/-- The writer of halt. -/
def wrHalt (c : CtxId) : Writer := fun m _ _ => .ok (m.haltCtx c)

/-- HALT (R149). -/
def execHalt (ch : Channel) (c : CtxId) (data : Bytes) (s : State) : Host.Outcome State Fault Refusal :=
  runs s fun m => m.dictWrite ch (ctxIdx c 3) 1 data (wrHalt c)

/-- A started consumer of a take-up stream that can never become whole, since its ARRAY slot cannot start any more. -/
def Mach.vecStranded (m : Mach) (j : VecJob) : Bool :=
  !j.computed && !(m.takeupOf j.c j.slot.uid).whole && !m.arrays.any fun a => decide (a.c = j.c ∧ a.slot.uid = j.slot.uid)

/-- Every started slot of a context has committed or stopped; a take-up pair held under R148 counts as stopped. -/
def Mach.drained (m : Mach) (c : CtxId) : Bool :=
  !(m.mv.jobs.any (fun j => decide (j.c = c)) || m.audits.any (fun j => decide (j.c = c)) ||
    m.drover.jobs.any (fun j => decide (j.c = c)) || m.shut.colls.any (fun k => decide (k.key.ctx = c) && !k.drover)) &&
  m.arrays.all (fun j => decide (j.c ≠ c) || (j.suspended && !m.arrayMayRun j)) &&
  m.vecs.all fun j => decide (j.c ≠ c) || m.vecStranded j

/-- The held take-up pairs of a faulted context never resume (R148). -/
def Mach.dropPairs (m : Mach) (c : CtxId) : Mach :=
  let m := (m.arrays.filter fun j => decide (j.c = c)).foldl Mach.stopArray m
  (m.vecs.filter fun j => decide (j.c = c)).foldl
    (fun m j => (m.dropVec c j.slot.uid).undefineVec c (parseVec j.slot.bytes)) m

/-- The end of containment: the FAULT record, held in fault_record too, and FAULTED (R148, R153 to R155). -/
def Mach.endContainment (m : Mach) (c : CtxId) (i : FaultInfo) : Mach :=
  let m := m.dropPairs c
  let x := m.ctxs[c]
  let f : RecFields := {
    kind := .fault, status := i.status.toNat, eng := i.eng, wordSeq := i.wordSeq.toNat,
    tokenId := i.tokenId.toNat, step := i.step.toNat, ordered := i.ordered, payload := faultPayload x.lastCommitted i }
  let bytes := recordBytes c x.recordSeq.toNat i.ts f
  let m := ((m.record c f (some i.ts)).modCtx c fun x => { x with faultRec := bytes, pendingFault := none }).setCtxState c .faulted .fault
  m.emcy 0xFF05 i.status.toNat 3 (some c) i.island.toNat 0 i.status.toNat

/-- CONTEXT_HALTED (R146, R148, R149). -/
def execContextHalted (c : CtxId) (s : State) : Host.Outcome State Fault Refusal :=
  runs s fun m =>
    let x := m.ctxs[c]
    if x.st ≠ .halting ∨ !m.drained c then m
    else match x.pendingFault with
      | some i => m.endContainment c i
      | none => m.setCtxState c .halted x.cause

/-- The writer of resume: only a context HALTED by a halt resumes (R149). -/
def wrResume (c : CtxId) : Writer := fun m _ _ =>
  .guard (!(m.ctxs[c]).resumable) abState (.waking m fun m => .ok (m.setCtxState c .enabled .none))

/-- RESUME (R149). -/
def execResume (ch : Channel) (c : CtxId) (data : Bytes) (s : State) : Host.Outcome State Fault Refusal :=
  runs s fun m => m.dictWrite ch (ctxIdx c 3) 2 data (wrResume c)

/-! ### Stopping slots (R150, R151) -/

/-- The destination of a slot that stops in its queue is undefined like that of one that has started, where the slot could
have written it. A collective that has not started has written nothing (R199). -/
def Mach.undefineQueued (m : Mach) (c : CtxId) (q : QSlot) : Mach :=
  match q.eng with
  | .move =>
    let s := parseMove q.bytes
    if (m.checkMove c s).isSome then m
    else m.undefineMove { c := c, slot := q, nextPiece := 0, pieces := 0, win := 0, outstanding := 0, nextApply := 0, srcIx := [],
                          dstIx := m.indexList s.dst s.ends.2, tokenSent := false, reserved := 0, waitingBpm := false, failed := none }
  | .array => if (m.checkArray c (parseArray q.bytes)).isSome then m else m.undefineArray c (parseArray q.bytes)
  | .vector => if (m.checkVec c (parseVec q.bytes)).isSome then m else m.undefineVec c (parseVec q.bytes)
  | .vault =>
    let v := parseVault q.bytes
    if v.op = 1 ∧ m.dramInWindow c v.dram v.length then m.dramScramble v.dram v.length else m
  | .audit =>
    let a := parseAudit q.bytes
    if a.op = 2 ∧ m.auditWindow c a then m.spadUndefine a.addr a.length else m
  | _ => m

/-- Stop the slots of a context whose word satisfies a predicate, started and queued. -/
def Mach.stopSlots (m : Mach) (c : CtxId) (p : Nat → Bool) : Mach :=
  let m := (m.mv.jobs.filter fun j => decide (j.c = c) && p j.slot.uid).foldl Mach.stopMove m
  let m := (m.arrays.filter fun j => decide (j.c = c) && p j.slot.uid).foldl Mach.stopArray m
  let m := (m.vecs.filter fun j => decide (j.c = c) && p j.slot.uid).foldl
    (fun m j => (m.dropVec c j.slot.uid).undefineVec c (parseVec j.slot.bytes)) m
  let m := (m.audits.filter fun j => decide (j.c = c) && p j.slot.uid).foldl Mach.stopAudit m
  let m := (m.drover.jobs.filter fun j => decide (j.c = c) && p j.slot.uid).foldl Mach.stopVault m
  let m := (m.shut.colls.filter fun k => decide (k.key.ctx = c) && !k.drover && p k.slot.uid).foldl
    (fun m k => m.withdraw k.key) m
  let queued := allEng.flatMap fun e => ((m.ctxs[c]).queues[e.num]).filter fun q => p q.uid
  let m := queued.foldl (fun m q => m.undefineQueued c q) m
  let m := m.modCtx c fun x => { x with queues := x.queues.map fun l => l.filter fun q => !p q.uid }
  { m with takeups := m.takeups.filter fun t => !(decide (t.c = c) && p t.uid) }

/-! ### Abort (R150) -/

/-- Word v lies at or after word w. -/
def fromSeq (w v : BitVec 16) : Bool := decide (v = w) || seqBefore 32767 w v

/-- Cut one SEND at the first undispatched word from w onward: what stays, and how many words go. A part that cannot be framed
counts as one word, with the word_seq its header gives (log 31). -/
def cutSend (w : BitVec 16) : Nat → Bytes → Bytes × Nat
  | 0, b => (b, 0)
  | n + 1, b =>
    if b = [] then ([], 0)
    else
      let seq : BitVec 16 := BitVec.ofNat 16 (getLe b 4 2)
      match frame b with
      | none => if fromSeq w seq then ([], 1) else (b, 0)
      | some (x, rest) =>
        let r := cutSend w n rest
        if fromSeq w (wordOf x).seq then ([], 1 + countWords n rest) else (x ++ r.1, r.2)
where
  /-- Words in a SEND. -/
  countWords : Nat → Bytes → Nat
    | 0, _ => 0
    | n + 1, b =>
      if b = [] then 0
      else match frame b with
        | none => 1
        | some (_, rest) => 1 + countWords n rest

/-- Discard the undispatched words from w onward: once one is found, every later one goes with it. -/
def cutQueue (w : BitVec 16) : List Bytes → List Bytes × Nat
  | [] => ([], 0)
  | b :: rest =>
    let r := cutSend w b.length b
    if r.2 = 0 then let t := cutQueue w rest; (b :: t.1, t.2)
    else ((if r.1 = [] then [] else [r.1]), r.2 + (rest.map fun x => cutSend.countWords x.length x).sum)

/-- The WORD record of an abort (R150). -/
def abortRecord (w : WordRec) : RecFields :=
  { kind := .word, status := if w.left = [] then 0 else 0x0A, wordSeq := w.seq.toNat, userTag := w.userTag.toNat,
    step := w.step.toNat, ordered := w.isOrdered }

/-- A word from w onward whose slots have all committed: its WORD record is the abort's, and its emit fires to the engines now, or
where the word is ordered once every earlier word has completed (R141, R150, log 31). -/
def Ctx.settleAborted (x : Ctx) (v : WordRec) : Ctx :=
  if v.left ≠ [] ∨ v.syncFired then x
  else if v.isOrdered ∧ !x.earlierDone v.uid then x.modWord v.uid fun u => { u with told := true }
  else if (x.overflows v.syncTargets.toNat v.syncId.toNat).isNone then
    (x.emit v.syncTargets.toNat v.syncId.toNat).modWord v.uid fun u => { u with syncFired := true, completed := true }
  else x

/-- Words before the first aborted one. -/
def keepWords (w : BitVec 16) : List WordRec → List WordRec
  | [] => []
  | v :: rest => if fromSeq w v.seq ∧ v.left ≠ [] then [] else v :: keepWords w rest

/-- The effect of an abort from word w. -/
def Mach.abortFrom (m : Mach) (c : CtxId) (w : BitVec 16) : Mach :=
  let x := m.ctxs[c]
  let abort := fun (m : Mach) (n : Nat) (late : Bool) =>
    m.record c { kind := .abort, status := 0, wordSeq := w.toNat, userTag := n, step := x.step.toNat, late := late }
  if seqBefore 32767 w x.lastCommitted then abort m 0 true
  else
    let cut := cutQueue w x.cmdQ
    let m := (m.modCtx c fun x => { x with cmdQ := cut.1 }).cnt 0xE003 132 (some c) cut.2
    let gone := (x.words.filter fun v => fromSeq w v.seq && decide (v.left ≠ [])).map WordRec.uid
    let m := m.stopSlots c fun uid => gone.contains uid
    let told := (x.lastWord.toList ++ x.words).filter fun v => fromSeq w v.seq
    let m := told.foldl (fun m v => (m.modCtx c fun x => x.settleAborted v).record c (abortRecord v)) m
    let late := decide (gone = []) && decide (cut.2 = 0)
    let m := m.modCtx c fun x =>
      let hold := match x.stepHold with
        | .word uid => if gone.contains uid then .none else x.stepHold
        | h => h
      { x with words := keepWords w x.words, stepHold := hold }.retire
    let m := abort m cut.2 late
    if late then m
    else match x.st, x.cause with
      | .enabled, _ => m.setCtxState c .halting .abort
      | .halting, .halt => m.setCtxState c .halting .abort
      | .halted, .halt => m.setCtxState c .halted .abort
      | _, _ => m

/-- The writer of abort_from_seq. -/
def wrAbortFromSeq (c : CtxId) : Writer := fun m _ v =>
  .guard (decide ((m.ctxs[c]).st = .disabled) || decide ((m.ctxs[c]).st = .resetting)) abState
    (.waking m fun m => .ok (m.abortFrom c (BitVec.ofNat 16 v.toNum)))

/-- ABORT_FROM_SEQ (R150). -/
def execAbortFromSeq (ch : Channel) (c : CtxId) (data : Bytes) (s : State) : Host.Outcome State Fault Refusal :=
  runs s fun m => m.dictWrite ch (ctxIdx c 3) 3 data (wrAbortFromSeq c)

/-! ### Reset, enable, disable (R146, R151) -/

/-- A QP returns to RESET (R281). -/
def Qp.toReset (q : Qp) : Qp := if q.st = .reset then q else { Qp.init with cnpTx := q.cnpTx, cnpRx := q.cnpRx }

/-- Every slot of a context stops without records, its queues empty, its buffers return, its collectives are withdrawn, the
checkpoint barrier among them (R151, R214, R297). -/
def Mach.stopCtx (m : Mach) (c : CtxId) : Mach :=
  let m := m.stopSlots c fun _ => true
  let m := (m.shut.colls.filter fun k => decide (k.key.ctx = c)).foldl (fun m k => m.withdraw k.key) m
  let m := m.bpmReleaseAll (rqCtx c)
  m.modCtx c fun x => { x with
    cmdQ := [], words := [], lastWord := none, stepHold := .none, pendingFault := none, faultEng := 7, qps := x.qps.map Qp.toReset }

/-- A write of context_reset (R151). -/
def Mach.resetCtx (m : Mach) (c : CtxId) : Mach := (m.stopCtx c).setCtxState c .resetting .none

/-- The writer of context_reset. -/
def wrContextReset (c : CtxId) : Writer := fun m _ _ => .ok (m.resetCtx c)

/-- CONTEXT_RESET (R151, R385). -/
def execContextReset (ch : Channel) (c : CtxId) (data : Bytes) (s : State) : Host.Outcome State Fault Refusal :=
  runs s fun m => m.dictWrite ch (ctxIdx c 3) 4 data (wrContextReset c)

/-- What a finished reset leaves: Heddle tables of zeros, the expected sequence of next_expected_seq, record_seq from 0
(R151, R153). Records of before the reset that were not yet written are dropped with their numbers (log 32). -/
def Ctx.fresh (x : Ctx) (next : Nat) : Ctx :=
  { x with heddle := [], expected := BitVec.ofNat 16 next, lastCommitted := BitVec.ofNat 16 next - 1, recordSeq := 0, recordQ := [],
           unacked := [], consumed := 0, wordBytes := [], voided := [] }

/-- CONTEXT_RESET_DONE (R146, R151, R281): once every token in transit has arrived and been discarded, the context is ENABLED, or
DISABLED where context_enable is 0 or DRAM has lost its contents (log 33). -/
def execContextResetDone (c : CtxId) (s : State) : Host.Outcome State Fault Refusal :=
  runs s fun m =>
    if (m.ctxs[c]).st ≠ .resetting ∨ m.tokenInTransit c then m
    else
      let m := m.modCtx c fun x => x.fresh (m.num (ctxIdx c 0) 4)
      if m.num (ctxIdx c 0) 2 = 1 ∧ 2 ≤ m.mem.dramState then m.setCtxState c .enabled .none
      else (m.modCtx c fun x => { x with qps := x.qps.map Qp.toReset }).setCtxState c .disabled .none

/-! ### Windows (R81, R82, R87, R88) -/

/-- Two ranges from lo to hi (exclusive) have something in common. -/
def crosses (a b : Nat × Nat) : Bool := decide (a.1 < a.2) && decide (b.1 < b.2) && decide (a.1 < b.2) && decide (b.1 < a.2)

/-- First offset of the pool region (R81). -/
def Mach.poolFloor (m : Mach) : Nat := (511 - m.mem.spadPool) * 2 ^ 20

/-- The range that a write still being zeroed will give a context: scratchpad (`spad`) or DRAM. -/
def Mach.pendingWindow (m : Mach) (d : CtxId) (spad : Bool) : Nat × Nat :=
  match (m.ctxs[d]).windowPending with
  | some (_, sub, n) =>
    let m' := m.setObj (ctxIdx d 4) sub (.num n)
    if spad then m'.spadWindow d else m'.dramWindow d
  | none => (0, 0)

/-- A scratchpad window fits beside those of the other contexts, in force or being zeroed, and below the pool region. -/
def Mach.spadWindowOk (m : Mach) (c : CtxId) (w : Nat × Nat) : Bool :=
  decide (w.2 ≤ w.1) || (decide (w.2 ≤ m.poolFloor) &&
    allCtx.all fun d => decide (d = c) || (!crosses w (m.spadWindow d) && !crosses w (m.pendingWindow d true)))

/-- A DRAM window fits beside those of the other contexts, in force or being zeroed, and below the Drover's regions. -/
def Mach.dramWindowOk (m : Mach) (c : CtxId) (w : Nat × Nat) : Bool :=
  decide (w.2 ≤ w.1) || (decide (w.2 ≤ m.droverBase) &&
    allCtx.all fun d => decide (d = c) || (!crosses w (m.dramWindow d) && !crosses w (m.pendingWindow d false)))

/-- The windows of a context are valid (R146). -/
def Mach.windowsOk (m : Mach) (c : CtxId) : Bool :=
  m.spadWindowOk c (m.spadWindow c) && m.dramWindowOk c (m.dramWindow c)

/-- What window b has and window a has not: at most two ranges. -/
def gained (a b : Nat × Nat) : List (Nat × Nat) :=
  if b.2 ≤ b.1 then []
  else if a.2 ≤ a.1 then [b]
  else (if b.1 < a.1 then [(b.1, min a.1 b.2)] else []) ++ (if a.2 < b.2 then [(max a.2 b.1, b.2)] else [])

/-- Zero a range of offsets on every die. -/
def Mach.spadZero (m : Mach) (a n : Nat) : Mach :=
  let hit := fun (x : Nat) => decide (x < 2 ^ 31) && decide (a ≤ x % 2 ^ 29) && decide (x % 2 ^ 29 < a + n)
  { m with spad := m.spad.filter fun e => !hit e.1,
           mem := { m.mem with badWords := m.mem.badWords.filter (fun w => !hit (w * 8)),
                               weakWords := m.mem.weakWords.filter fun w => !hit (w * 8) } }

/-- A memory window lies in its context's window (R287). -/
def Mach.mwFits (m : Mach) (c : CtxId) (space base len : Nat) : Bool :=
  if space = 1 then m.spadInWindow c base len else decide (space = 2) && m.dramInWindow c base len

/-- Memory windows left outside the context's windows are destroyed and counted (R287). -/
def Mach.revokeMws (m : Mach) (c : CtxId) : Mach :=
  let out := fun (k : Mw) => k.key.isSome && !m.mwFits c k.space k.base k.length
  let n := ((m.ctxs[c]).mws.toList.filter out).length
  (m.modCtx c fun x => { x with mws := x.mws.map fun k => if out k then { k with key := none } else k }).cnt 0x600D 101 (some c) n

/-- The windows before and after a write of a window object's value. -/
def Mach.windowWith (m : Mach) (c : CtxId) (sub v : Nat) : (Nat × Nat) × (Nat × Nat) :=
  let m' := m.setObj (ctxIdx c 4) sub (.num v)
  if sub ≤ 2 then (m.spadWindow c, m'.spadWindow c) else (m.dramWindow c, m'.dramWindow c)

/-- A window may be written: DISABLED, HALTED, or all engines IDLE, which HALTING and FAULTED rule out, and the command queue empty
(R88, R145). -/
def Mach.windowFree (m : Mach) (c : CtxId) : Bool :=
  let x := m.ctxs[c]
  decide (x.st = .disabled) || decide (x.st = .halted) || ((decide (x.st = .enabled) || decide (x.st = .resetting)) && m.ctxIdle c)

/-- A write of a window object. What the window gains is zeroed before the write is acknowledged. A second write while one is
being zeroed is refused (log 34). -/
def wrWindow (c : CtxId) (sub : Nat) : Writer := fun m ch v =>
  let n := v.toNum
  let w := m.windowWith c sub n
  .guard (if sub ≤ 2 then !m.spadWindowOk c w.2 else decide (n % 2 ^ 21 ≠ 0) || !m.dramWindowOk c w.2) abRange
    (.guard (!m.windowFree c || (m.ctxs[c]).windowPending.isSome) abState
      (if gained w.1 w.2 = [] then .ok ((m.setObj (ctxIdx c 4) sub (.num n)).revokeMws c)
       else .later (m.modCtx c fun x => { x with windowPending := some (wroteOut ch (ctxIdx c 4) sub 0, sub, n) })))

/-- WINDOW_WRITE (R81, R87, R88). -/
def execWindowWrite (ch : Channel) (c : CtxId) (sub : Nat) (data : Bytes) (s : State) : Host.Outcome State Fault Refusal :=
  runs s fun m => if 1 ≤ sub ∧ sub ≤ 4 then m.dictWrite ch (ctxIdx c 4) sub data (wrWindow c sub) else m

/-- WINDOW_ZERO_DONE (R82, R87): the gained range holds zeros, the window is in force, and the write is acknowledged. -/
def execWindowZeroDone (c : CtxId) (s : State) : Host.Outcome State Fault Refusal :=
  runs s fun m =>
    match (m.ctxs[c]).windowPending with
    | none => m
    | some (answer, sub, n) =>
      let w := m.windowWith c sub n
      let zero := fun (m : Mach) (r : Nat × Nat) => if sub ≤ 2 then m.spadZero r.1 (r.2 - r.1) else m.dramZero r.1 (r.2 - r.1)
      let m := (gained w.1 w.2).foldl zero m
      let m := ((m.setObj (ctxIdx c 4) sub (.num n)).revokeMws c).modCtx c fun x => { x with windowPending := none }
      m.reply answer

/-! ### Enabling (R146, R322, R385) -/

/-- A write of 1 to context_enable: a DISABLED context is enabled; where its windows are not valid, DRAM is not in service, or a
module-scope error forbids it, the write is refused (log 33). -/
def Mach.enableCtx (m : Mach) (c : CtxId) : Wr :=
  let put := fun (m : Mach) => m.setObj (ctxIdx c 0) 2 (.num 1)
  if (m.ctxs[c]).st ≠ .disabled then .waking m fun m => .ok (put m)
  else .waking m fun m =>
    .guard (m.pwr.moduleScopeFault || !m.windowsOk c || decide (m.mem.dramState ≠ 2)) abState
      (.ok ((put m).setCtxState c .enabled .none))

/-- A write of 0 to context_enable (R146): the context stops as under a reset, and the tokens in transit are void, though the context be
enabled again before they arrive; in RESETTING the reset finishes first. -/
def Mach.disableCtx (m : Mach) (c : CtxId) : Mach :=
  let m := m.setObj (ctxIdx c 0) 2 (.num 0)
  match (m.ctxs[c]).st with
  | .disabled | .resetting => m
  | _ =>
    let void := (m.tokensInside c).map fun p => ((hdrOf p).src.toNat, (hdrOf p).tag)
    ((m.stopCtx c).modCtx c fun x => { x with voided := void }).setCtxState c .disabled .none

/-- A write of context_enable. -/
def wrContextEnable (c : CtxId) : Writer := fun m _ v => if v.toNum = 1 then m.enableCtx c else .ok (m.disableCtx c)

/-- CONTEXT_ENABLE (R146, R385): 1 is written to context_enable. -/
def execContextEnable (ch : Channel) (c : CtxId) (s : State) : Host.Outcome State Fault Refusal :=
  runs s fun m => m.dictWrite ch (ctxIdx c 0) 2 one (wrContextEnable c)

/-- CONTEXT_DISABLE (R146, R385): 0 is written to context_enable. -/
def execContextDisable (ch : Channel) (c : CtxId) (s : State) : Host.Outcome State Fault Refusal :=
  runs s fun m => m.dictWrite ch (ctxIdx c 0) 2 [0] (wrContextEnable c)

/-! ### The completion ring (R284 to R286) -/

/-- Entries of a context's completion ring. -/
def Mach.ringEntries (m : Mach) (c : CtxId) : Nat := m.num (qpIdx c qComp) 0x12

/-- record_seq of the next record to be written. -/
def Ctx.nextRecord (x : Ctx) : BitVec 32 :=
  match x.recordQ with
  | r :: _ => r.seq
  | [] => x.recordSeq

/-- RECORD_WRITE (R284, R285): the next record goes to the host's ring. -/
def execRecordWrite (c : CtxId) (s : State) : Host.Outcome State Fault Refusal :=
  runs s fun m => m.over [101, 126, 132] fun m =>
    let x := m.ctxs[c]
    match x.recordQ with
    | [] => m
    | r :: rest =>
      let n := m.ringEntries c
      if x.qps[qComp].st ≠ .rts ∨ !m.hostUp ∨ m.hostPaused 0 ∨ n ≤ (r.seq - x.consumed).toNat then m
      else
        let va := m.num (qpIdx c qComp) 0x10 + r.seq.toNat % n * 64
        let m := m.modCtx c fun x => { x with recordQ := rest, unacked := x.unacked ++ [r] }
        let m := m.modQp c qComp fun p => { p with outstanding := p.outstanding ++ [.record r.seq] }
        (m.psnTx c qComp 64).send (.rdmaWriteImm c va (m.num (qpIdx c qComp) 0x11) r.seq r.bytes)

/-- RING_CREDIT (R285): the host's count of consumed records. A count past the records written, a message of another length,
or reserved bits set are ignored and counted. -/
def execRingCredit (c : CtxId) (msg : Bytes) (ce : Bool) (s : State) : Host.Outcome State Fault Refusal :=
  runs s fun m => m.qpRecv c qComp ce msg.length 0 fun m =>
    let x := m.ctxs[c]
    let n : BitVec 32 := BitVec.ofNat 32 (leNat msg)
    let ok := decide (msg.length = 8) && decide (leNat msg < 2 ^ 32) &&
      decide ((n - x.consumed).toNat ≤ (x.nextRecord - x.consumed).toNat)
    let m := if ok then m.modCtx c fun x => { x with consumed := n } else m.cnt 0x600B 101 (some c)
    (m.psnRx c qComp msg.length).send (.rcAck c qComp)

/-- HOST_RING_STALL_TIMEOUT (R285): a commit has waited for record room longer than host_ring_stall_timeout; it goes on
waiting. -/
def execHostRingStallTimeout (c : CtxId) (s : State) : Host.Outcome State Fault Refusal :=
  runs s fun m =>
    if (m.ctxs[c]).recordRoom then m else (m.cnt 0x600C 101 (some c)).emcy 0xFF08 c.val 2 (some c) 101 0x600C

end Sys2Proof.Machine
end

