-- ==== Sys2Proof/Machine/Host.lean ====
section
/-! DEFINITION. The Ethernet host port (chapter 10): modes, pause and echo, congestion notification, RDMA through memory windows,
RC answers, queue pairs and memory windows. -/

namespace Sys2Proof.Machine

open Sys2Proof

/-! ### The port (R274 to R279) -/

/-- Port rate of a mode in Mbit/s (R274). -/
def portRate (mode : Nat) : Nat :=
  match mode with
  | 0 => 1600000
  | 1 => 800000
  | 2 => 400000
  | _ => 0

/-- Change the host port. -/
def Mach.modHost (m : Mach) (f : HostPort → HostPort) : Mach := { m with host := f m.host }

/-- The port starts in its requested mode: no link yet, or off (R274, R275). -/
def Mach.hostStart (m : Mach) : Mach :=
  let r := m.num 0x2700 1
  m.modHost fun h => { h with mode := if r = 3 then 3 else 4, trying := r, paused := 0, waiting := [] }

/-- A write of host_mode_request. -/
def wrHostMode : Writer := fun m _ v =>
  .guard (decide (3 < v.toNum)) abRange
    (let m := m.setObj 0x2700 1 v
     .ok (if m.reachable [101] then (m.wake [101]).hostStart else m))

/-- HOST_MODE_REQUEST (R274, R275). -/
def execHostModeRequest (ch : Channel) (data : Bytes) (s : State) : Host.Outcome State Fault Refusal :=
  runs s fun m => m.dictWrite ch 0x2700 1 data wrHostMode

/-- The port is trying to bring its link up. -/
def Mach.hostTrying (m : Mach) : Bool :=
  decide ((m.islands[(101 : IslandId)]).st = .run) && decide (m.host.mode = 4) && decide (m.host.trying < 3)

/-- HOST_LINK_UP (R274, R275): PCS lock in the mode being tried. -/
def execHostLinkUp (s : State) : Host.Outcome State Fault Refusal :=
  runs s fun m => if m.hostTrying then m.modHost fun h => { h with mode := h.trying } else m

/-- HOST_LINK_UP_TIMEOUT (R275): the next lower mode down to 400G, then the requested mode again. -/
def execHostLinkUpTimeout (s : State) : Host.Outcome State Fault Refusal :=
  runs s fun m =>
    if !m.hostTrying ∨ m.num 0x2700 3 = 0 then m
    else if m.host.trying < 2 then (m.cnt 0x6000 101).modHost fun h => { h with trying := h.trying + 1 }
    else m.modHost fun h => { h with trying := m.num 0x2700 1 }

/-- HOST_LINK_DOWN (R275): PCS lock is lost; the port retries the mode it was in, and the QPs stay in RTS (R281). -/
def execHostLinkDown (s : State) : Host.Outcome State Fault Refusal :=
  runs s fun m => if m.hostUp then m.modHost fun h => { h with trying := h.mode, mode := 4, paused := 0, waiting := [] } else m

/-- PFC_FRAME (R277): obeyed on the two priorities; what waited on a priority goes out when it is resumed. -/
def execPfcFrame (prio : Nat) (xoff : Bool) (s : State) : Host.Outcome State Fault Refusal :=
  runs s fun m =>
    if !m.hostUp ∨ 8 ≤ prio ∨ !(decide (prio = m.num 0x2700 0x0A) || decide (prio = m.num 0x2700 0x0B)) then m
    else (m.modHost fun h => { h with paused := setBits h.paused prio xoff }).resend
where
  /-- Set or clear one bit. -/
  setBits (p : BitVec 8) (i : Nat) (b : Bool) : BitVec 8 :=
    let k : BitVec 8 := BitVec.ofNat 8 (2 ^ i)
    if b then p ||| k else p &&& ~~~k

/-- A frame that the port does not serve is dropped and counted (R276). -/
def Mach.hostOther (m : Mach) : Mach := m.cnt 0x6002 101

/-- ARP_REQUEST (R276): answered for the port's own IPv4 address. -/
def execArpRequest (target : BitVec 32) (requester : BitVec 48) (s : State) : Host.Outcome State Fault Refusal :=
  runs s fun m =>
    if !m.hostUp then m
    else if target ≠ 0 ∧ m.num 0x2700 7 = target.toNat then m.send (.arpReply requester target)
    else m.hostOther

/-- The port's own IPv6 address. -/
def Mach.ipv6 (m : Mach) : Bytes := (m.obj 0x2700 6).toBytes

/-- An IPv6 address of the port. -/
def Mach.ownV6 (m : Mach) (target : Bytes) : Bool := decide (target = m.ipv6) && target.any fun b => decide (b ≠ 0)

/-- NEIGHBOUR_SOLICITATION (R276): answered for the port's own IPv6 address. -/
def execNeighbourSolicitation (target : Bytes) (requester : BitVec 48) (s : State) : Host.Outcome State Fault Refusal :=
  runs s fun m =>
    if !m.hostUp then m
    else if m.ownV6 target then m.send (.neighbourAdvert requester target)
    else m.hostOther

/-- ECHO_REQUEST (R276): answered for the port's own addresses; the target is the destination address in network order. -/
def execEchoRequest (v6 : Bool) (target : Bytes) (payload : Bytes) (s : State) : Host.Outcome State Fault Refusal :=
  runs s fun m =>
    let own := if v6 then m.ownV6 target else decide (leNat target ≠ 0) && decide (target.reverse = natLe 4 (m.num 0x2700 7))
    if !m.hostUp then m
    else if m.num 0x2700 9 < (if v6 then 40 else 20) + 8 + payload.length then m.cnt 0x6001 101
    else if own then m.send (.echoReply v6 payload)
    else m.hostOther

/-- OTHER_FRAME (R276, R279, R280): dropped and counted. -/
def execOtherFrame (kind : FrameFault) (s : State) : Host.Outcome State Fault Refusal :=
  runs s fun m =>
    if !m.hostUp then m
    else match kind with
      | .notServed | .extraTags => m.hostOther
      | .oversize => m.cnt 0x6001 101
      | .unknownQp n => if (qpOfNumber n.toNat).isNone then m.cnt 0x6007 101 else m

/-- UNSUPPORTED_OPERATION (R279). -/
def execUnsupportedOperation (c : CtxId) (q : QpFrame) (kind : Unsupported) (s : State) : Host.Outcome State Fault Refusal :=
  runs s fun m =>
    match kind with
    | .otherTransport => if m.hostUp then m.cnt 0x6007 101 else m
    | _ => m.qpRecv c q.q q.ce 0 0 fun m => (m.nakInvalid c q.q).endFailed

/-! ### Congestion notification (R278) -/

/-- A cnp_interval has passed since a time, or there is none. -/
def Mach.cnpDue (m : Mach) (last : Option Nat) : Bool :=
  match last with
  | some t => decide (t + m.num 0x2700 0x0E * 1000 ≤ m.now)
  | none => true

/-- CNP (R278): the addressed QP's rate is halved, not below 1 Gbit/s, at most once per cnp_interval. -/
def execCnp (c : CtxId) (q : QpNo) (s : State) : Host.Outcome State Fault Refusal :=
  runs s fun m => m.qpRecv c q false 0 16 fun m =>
    let m := (m.cnt 0x6006 101 (some c)).modQp c q fun p => { p with rateSince := m.now }
    if m.cnpDue (m.ctxs[c]).qps[q].cnpRx then m.modQp c q fun p => { p with rate := max 1000 (p.rate / 2), cnpRx := some m.now } else m

/-- RATE_RECOVER (R278): after a rate_recover interval without a CNP the rate grows by 5 % of the port rate, up to it. -/
def execRateRecover (c : CtxId) (q : QpNo) (s : State) : Host.Outcome State Fault Refusal :=
  runs s fun m =>
    let r := portRate m.host.mode
    let due := (m.ctxs[c]).qps[q].rateSince + m.num 0x2700 0x0F * 1000
    if (m.ctxs[c]).qps[q].st = .rts ∧ m.hostUp ∧ due ≤ m.now then
      m.modQp c q fun p => { p with rate := max p.rate (min r (p.rate + r / 20)), rateSince := m.now }
    else m

/-! ### Host access through memory windows (R287, R288) -/

/-- Data QPs are 2 to 16 (R280). -/
def isData (q : QpNo) : Bool := decide (2 ≤ q.val) && decide (q.val ≤ 16)

/-- The memory window of context c that an R_Key names. -/
def Mach.mwOf (m : Mach) (c : CtxId) (rkey : BitVec 32) : Option Mw :=
  if bits rkey.toNat 31 30 ≠ c.val then none
  else
    let k := (m.ctxs[c]).mws[(Fin.ofNat 16 (bits rkey.toNat 29 26) : MwNo)]
    if k.key = some rkey then some k else none

/-- A packet passes the checks of R288: key, access bit, range. -/
def mwAllows (k : Option Mw) (accessBit off len : Nat) : Bool :=
  match k with
  | some k => bit k.access.toNat accessBit && decide (off + len ≤ k.length)
  | none => false

/-- A QP enters ERROR, and the slots whose requests were outstanding on it end (R281, R289). -/
def Mach.qpFail (m : Mach) (c : CtxId) (q : QpNo) (st : Status) (detail : Nat) : Mach := (m.qpError c q st detail).endFailed

/-- NAK with an error of the responder; the QP enters ERROR. -/
def Mach.nakWith (m : Mach) (c : CtxId) (q : QpNo) (kind : NakKind) : Mach :=
  (m.send (.rcNak c q kind)).qpFail c q .linkLost 0xFFFFFFFF

/-- A packet that fails a check of R288. -/
def Mach.rkeyReject (m : Mach) (c : CtxId) (q : QpNo) : Mach := (m.cnt 0x600E 101 (some c)).nakWith c q .remoteAccess

/-- RDMA on a QP that serves none: the command QP counts it like an oversized message (R282). -/
def Mach.rdmaElsewhere (m : Mach) (c : CtxId) (q : QpNo) : Mach :=
  ((if q = qCmd then m.cnt 0x6009 101 (some c) else m).nakInvalid c q).endFailed

/-- The islands on the way to n bytes of a window's range (R11). -/
def mwPath (k : Mw) (off n : Nat) : List IslandId :=
  hostPath ++ (if k.space = 2 then dramPath (k.base + off) n else spadPath (k.base + off) n)

/-- Write the packets of an RDMA WRITE in order, until one meets an uncorrectable unit that it covers in part. -/
def Mach.mwPackets (m : Mach) (c : CtxId) (k : Mw) : List (Nat × Bytes) → Mach × Bool
  | [] => (m, true)
  | (off, b) :: rest =>
    let a := k.base + off
    if k.space = 2 then
      match m.dramStore a b (some c) with
      | (m, some _) => (m, false)
      | (m, none) => Mach.mwPackets m c k rest
    else match m.spadStore a b (some c) with
      | (m, some _) => (m, false)
      | (m, none) => Mach.mwPackets m c k rest

/-- A message cut into packets of the QP's path MTU: offset and bytes. -/
def Mach.packets (m : Mach) (c : CtxId) (q : QpNo) (off : Nat) (data : Bytes) : List (Nat × Bytes) :=
  let n := max 1 (m.num (qpIdx c q) 7)
  (List.range (max 1 (cdiv data.length n))).map fun i => (off + i * n, slice (i * n) n data)

/-- RDMA_WRITE (R79, R85, R288): every packet is checked and written; the acknowledgement follows once the bytes are visible. A
write that touches an uncopied patch is held as a whole (R299). -/
def execRdmaWrite (c : CtxId) (q : QpNo) (rkey : BitVec 32) (offset : Nat) (data : Bytes) (ce : Bool) (s : State) :
    Host.Outcome State Fault Refusal :=
  runs s fun m => m.qpRecv c q ce data.length 16 fun m0 =>
    if !isData q then m0.rdmaElsewhere c q
    else
      let k? := m0.mwOf c rkey
      let good := (m0.packets c q offset data).takeWhile fun p => mwAllows k? 1 p.1 p.2.length
      let n := (good.map fun p => p.2.length).sum
      let all := decide (good.length = (m0.packets c q offset data).length)
      match k? with
      | none => m0.rkeyReject c q
      | some k =>
        if good = [] then m0.rkeyReject c q
        else
          let m := m0.leaveQuiet
          if !m.works ∨ !m.reachable (mwPath k offset n) then m0
          else
            let m := m.wake (mwPath k offset n)
            let ack := if all then [Out.rcAck c q] else []
            let finish := fun (m : Mach) => if all then m.psnRx c q n else m.rkeyReject c q
            if k.space = 2 ∧ m.mustHold (k.base + offset) n then
              finish (m.dramWrite (k.base + offset) (data.take n) (some c) none [] ack).1
            else match m.mwPackets c k good with
              | (m, true) => finish (ack.foldl Mach.send m)
              | (m, false) => m.nakWith c q .remoteOperational

/-- READs of a QP whose responses PFC holds back: outstanding, for max_rd_in (R277, R288). -/
def Mach.readsHeld (m : Mach) (c : CtxId) (q : QpNo) : Nat :=
  (m.host.waiting.filter fun o => match o with
    | .rdmaReadResp d r _ => decide (d = c) && decide (r = q)
    | _ => false).length

/-- RDMA_READ (R288, R135): the request is checked, and the data are sent. Data with an uncorrectable error are answered with NAK
Remote Operational Error (log 35). -/
def execRdmaRead (c : CtxId) (q : QpNo) (rkey : BitVec 32) (offset : Nat) (len : Nat) (ce : Bool) (s : State) :
    Host.Outcome State Fault Refusal :=
  runs s fun m => m.qpRecv c q ce 0 16 fun m0 =>
    if !isData q then m0.rdmaElsewhere c q
    else match m0.mwOf c rkey with
      | none => m0.rkeyReject c q
      | some k =>
        if !mwAllows (some k) 0 offset len then m0.rkeyReject c q
        else if m0.num (qpIdx c q) 0x0D ≤ m0.readsHeld c q then m0
        else
          let m := m0.leaveQuiet
          if !m.works ∨ !m.reachable (mwPath k offset len) then m0
          else
            let m := m.wake (mwPath k offset len)
            match (if k.space = 2 then m.fetchDram (k.base + offset) len (some c) else m.fetchSpad (k.base + offset) len (some c)) with
            | (m, .error _) => m.nakWith c q .remoteOperational
            | (m, .ok b) => (m.psnRx c q len).send (.rdmaReadResp c q b)

/-! ### The module's own requests (R284, R286, R289) -/

/-- Staging buffers of a finished piece return to pool 1 (R105, R111). -/
def Mach.unstage (m : Mach) (c : CtxId) (uid len : Nat) : Mach :=
  let n := cdiv len 16384
  match m.moveJob c uid with
  | none => m
  | some _ => (m.bpmReturn 1 rqMove n).modMove c uid fun j =>
      { j with outstanding := j.outstanding - 1, reserved := j.reserved - n }

/-- Write the parts of a piece from the bytes that the host sent. -/
def Mach.landSegs (m : Mach) (c : CtxId) (uid : Nat) (j : MoveJob) (s : MoveSlot) : List Seg → Bytes → Mach × Option Nat
  | [], _ => (m, none)
  | g :: rest, b =>
    match m.writeSeg c uid j s g (b.take g.len) with
    | (m, some i) => (m, some i)
    | (m, none) => Mach.landSegs m c uid j s rest (b.drop g.len)

/-- Is an outstanding request a READ? -/
def HostReq.isRead : HostReq → Bool
  | .read _ _ _ _ _ => true
  | _ => false

/-- RDMA_READ_RESPONSE (R105, R289): the data of the oldest READ of a data QP. -/
def execRdmaReadResponse (c : CtxId) (q : QpNo) (data : Bytes) (ce : Bool) (s : State) : Host.Outcome State Fault Refusal :=
  runs s fun m => m.qpRecv c q ce data.length 4 fun m0 =>
    match takeFirst HostReq.isRead (m0.ctxs[c]).qps[q].outstanding with
    | some (.read uid piece _ _ len, rest) =>
      if data.length ≠ len then m0
      else
        let m := m0.modQp c q fun p => { p with outstanding := rest, retries := 0, rnrRetries := 0 }
        match m.moveJob c uid with
        | none => m
        | some j =>
          let s := parseMove j.slot.bytes
          let path := j.path s (s.piece piece)
          if !m.works ∨ !m.reachable path then m0
          else match (m.wake path).landSegs c uid j s (s.piece piece) data with
          | (m, some i) => m.failMove j Status.uncorrectable.code i
          | (m, none) => m.unstage c uid len
    | _ => m0

/-- RC_ACK (R284, R286, R289): the oldest request of the module other than a READ is acknowledged. -/
def execRcAck (c : CtxId) (q : QpFrame) (s : State) : Host.Outcome State Fault Refusal :=
  runs s fun m => m.qpRecv c q.q q.ce 0 4 fun m =>
    let q := q.q
    match takeFirst (fun r => !HostReq.isRead r) (m.ctxs[c]).qps[q].outstanding with
    | none => m
    | some (r, rest) =>
      let m := m.modQp c q fun p => { p with outstanding := rest, retries := 0, rnrRetries := 0 }
      match r with
      | .write uid _ _ b => m.unstage c uid b.length
      | .record n => m.modCtx c fun x => { x with unacked := x.unacked.filter fun k => !decide (k.seq = n) }
      | _ => m

/-- Detail of a transport timeout: ack_timeout_code of the QP (R289). -/
def ackTimeoutDetail (c : CtxId) (q : QpNo) : Nat := objDetail (qpIdx c q) 8

/-- Send the outstanding requests of a QP again, in order. -/
def Mach.retransmit (m : Mach) (c : CtxId) (q : QpNo) : Mach :=
  (m.ctxs[c]).qps[q].outstanding.foldl (fun m r => match r with
    | .read _ _ a k n => m.send (.rdmaReadReq c q a k n)
    | .write _ a k b => m.send (.rdmaWrite c q a k b)
    | .record n => match (m.ctxs[c]).unacked.find? fun (r : Record) => decide (r.seq = n) with
      | some r => m.send (.rdmaWriteImm c (m.num (qpIdx c q) 0x10 + n.toNat % max 1 (m.ringEntries c) * 64) (m.num (qpIdx c q) 0x11) n r.bytes)
      | none => m
    | .mgmt b => m.send (.mgmtResponse c b)) m

/-- RC_NAK (R281, R289): RNR is retried rnr_retry times, 7 without limit; every other NAK puts the QP in ERROR. -/
def execRcNak (c : CtxId) (q : QpFrame) (kind : NakKind) (s : State) : Host.Outcome State Fault Refusal :=
  runs s fun m => m.qpRecv c q.q q.ce 0 4 fun m =>
    let q := q.q
    match kind with
    | .rnr =>
      let n := (m.ctxs[c]).qps[q].rnrRetries + 1
      let limit := m.num (qpIdx c q) 0x0A
      if (m.ctxs[c]).qps[q].outstanding = [] then m
      else if limit ≠ 7 ∧ limit < n then m.qpFail c q .timeout (ackTimeoutDetail c q)
      else (m.modQp c q fun p => { p with rnrRetries := n }).retransmit c q
    | .remoteAccess => m.qpFail c q .windowViolation 1
    | .invalidRequest | .remoteOperational => m.qpFail c q .linkLost 0xFFFFFFFF

/-- RC_ACK_TIMEOUT (R281, R289): a request without an answer is sent again, retry_count times; while the Ethernet link is down
nothing is sent and nothing counts. -/
def execRcAckTimeout (c : CtxId) (q : QpNo) (s : State) : Host.Outcome State Fault Refusal :=
  runs s fun m =>
    let p := (m.ctxs[c]).qps[q]
    if p.st ≠ .rts ∨ p.outstanding = [] ∨ !m.hostUp then m
    else if m.num (qpIdx c q) 9 ≤ p.retries then m.qpFail c q .timeout (ackTimeoutDetail c q)
    else (m.modQp c q fun p => { p with retries := p.retries + 1 }).retransmit c q

/-! ### Queue pairs (R281, R286) -/

/-- The configuration of a QP is complete: its far end is named, and a completion QP has a ring (log 36). -/
def Mach.qpComplete (m : Mach) (c : CtxId) (q : QpNo) : Bool :=
  let i := qpIdx c q
  decide (m.num i 2 ≠ 0) && (m.obj i 3).toBytes.any (fun b => decide (b ≠ 0)) && decide (m.num i 4 ≠ 0) &&
    (decide (q ≠ qComp) || decide (m.num i 0x12 ≠ 0))

/-- A write of qp_connect. On the completion QP writing resumes from the oldest record that RC has not acknowledged, and
records_consumed becomes the record_seq from which it resumes (R286, log 32). -/
def wrQpConnect (c : CtxId) (q : QpNo) : Writer := fun m _ _ =>
  .guard (decide ((m.ctxs[c]).qps[q].st ≠ .reset) || decide ((m.ctxs[c]).st = .disabled) || !m.qpComplete c q) abState
    (let i := qpIdx c q
     let m := m.modQp c q fun p => {
       p with st := .rts, sendPsn := m.num i 5 % 2 ^ 24, expPsn := m.num i 6 % 2 ^ 24,
              rate := if m.host.mode < 3 then portRate m.host.mode else portRate m.host.trying,
              outstanding := [], retries := 0, rnrRetries := 0, rateSince := m.now }
     .ok (if q = qComp then
         m.modCtx c fun x =>
           let y := { x with recordQ := x.unacked ++ x.recordQ, unacked := [] }
           { y with consumed := y.nextRecord }
       else m))

/-- QP_CONNECT (R281). -/
def execQpConnect (ch : Channel) (c : CtxId) (q : QpNo) (data : Bytes) (s : State) : Host.Outcome State Fault Refusal :=
  runs s fun m => m.dictWrite ch (qpIdx c q) 0x0E data (wrQpConnect c q)

/-- A write of qp_reset: requests still outstanding fail, and the QP is in RESET. -/
def wrQpReset (c : CtxId) (q : QpNo) : Writer := fun m _ _ =>
  .ok ((m.qpFail c q .linkLost 0xFFFFFFFF).modQp c q fun p => { Qp.init with cnpTx := p.cnpTx, cnpRx := p.cnpRx })

/-- QP_RESET (R281). -/
def execQpReset (ch : Channel) (c : CtxId) (q : QpNo) (data : Bytes) (s : State) : Host.Outcome State Fault Refusal :=
  runs s fun m => m.dictWrite ch (qpIdx c q) 0x0F data (wrQpReset c q)

/-- A write of a configuration object of a QP: value checks, then only in RESET (R279, R281, R286). -/
def wrQpConfig (c : CtxId) (q : QpNo) (sub : Nat) : Writer := fun m _ v =>
  let n := v.toNum
  let bad := match sub with
    | 7 => !([1024, 2048, 4096].contains n)
    | 0x12 => !(decide (64 ≤ n) && decide (n ≤ 65536) && decide (2 ^ clog2 n = n))
    | _ => false
  .guard bad abRange (.guard (decide ((m.ctxs[c]).qps[q].st ≠ .reset)) abState (.ok (m.setObj (qpIdx c q) sub v)))

/-! ### Memory windows (R287) -/

/-- The tag of a new key: from the random source, never the window's previous tag. -/
def Mach.newTag (m : Mach) (last : BitVec 26) : BitVec 26 :=
  let t : BitVec 26 := BitVec.ofNat 26 (Config.freeWord m.freeCtr)
  if t = last then t + 1 else t

/-- A write of mw_create. -/
def wrMwCreate (c : CtxId) (w : MwNo) : Writer := fun m _ _ =>
  let i := mwIdx c w
  let space := m.num i 1
  let base := m.num i 2
  let len := m.num i 3
  .guard (!m.mwFits c space base len) abRange
    (let t := m.newTag ((m.ctxs[c]).mws[w]).lastTag
     let key : BitVec 32 := BitVec.ofNat 32 (c.val * 2 ^ 30 + w.val * 2 ^ 26 + t.toNat)
     let k : Mw := ⟨some key, t, space, base, len, BitVec.ofNat 8 (m.num i 4)⟩
     .ok (m.modCtx c fun x => { x with mws := Vec.upd x.mws w fun _ => k }).drew)

/-- MW_CREATE (R287). -/
def execMwCreate (ch : Channel) (c : CtxId) (w : MwNo) (data : Bytes) (s : State) : Host.Outcome State Fault Refusal :=
  runs s fun m => m.dictWrite ch (mwIdx c w) 5 data (wrMwCreate c w)

/-- A write of mw_destroy. -/
def wrMwDestroy (c : CtxId) (w : MwNo) : Writer := fun m _ _ =>
  .ok (m.modCtx c fun x => { x with mws := Vec.upd x.mws w fun k => { k with key := none } })

/-- MW_DESTROY (R287): the key is invalid at once. -/
def execMwDestroy (ch : Channel) (c : CtxId) (w : MwNo) (data : Bytes) (s : State) : Host.Outcome State Fault Refusal :=
  runs s fun m => m.dictWrite ch (mwIdx c w) 7 data (wrMwDestroy c w)

end Sys2Proof.Machine
end

