-- ==== Sys2Proof/Machine/Rs.lean ====
section
/-! DEFINITION. The Reed–Solomon code RS(544,514) over 10-bit symbols that R222 names: field GF(2^10) with x^10 + x^3 + 1 and the
generator with roots α^0 to α^29, as in IEEE 802.3 Clause 91 (log 29). -/

namespace Sys2Proof.Machine

open Sys2Proof

/-- Multiply by α. -/
def gfDouble (a : BitVec 10) : BitVec 10 := if a.getLsbD 9 then (a <<< 1) ^^^ 9 else a <<< 1

/-- Product in the field, by the bits of b from below. -/
def gfMulGo : Nat → BitVec 10 → BitVec 10 → BitVec 10
  | 0, _, _ => 0
  | f + 1, a, b => (if b.getLsbD 0 then a else 0) ^^^ gfMulGo f (gfDouble a) (b >>> 1)

def gfMul (a b : BitVec 10) : BitVec 10 := gfMulGo 10 a b

/-- Power, by squaring. -/
def gfPowGo : Nat → BitVec 10 → Nat → BitVec 10
  | 0, _, _ => 1
  | f + 1, a, n => gfMul (if n % 2 = 1 then a else 1) (gfPowGo f (gfMul a a) (n / 2))

def gfPow (a : BitVec 10) (n : Nat) : BitVec 10 := gfPowGo 10 a (n % 1023)

/-- Inverse: a^1022. -/
def gfInv (a : BitVec 10) : BitVec 10 := gfPow a 1022

/-- α^n. -/
def gfExp (n : Nat) : BitVec 10 := gfPow 2 n

/-- A polynomial, lowest coefficient first, at a point. -/
def polyAt (p : List (BitVec 10)) (x : BitVec 10) : BitVec 10 := p.foldr (fun c acc => c ^^^ gfMul acc x) 0

/-- The 30 syndromes of a received word; its first symbol is the highest coefficient. -/
def syndromes (w : List (BitVec 10)) : List (BitVec 10) :=
  (List.range 30).map fun j => let x := gfExp j
    w.foldl (fun acc c => gfMul acc x ^^^ c) 0

/-- Sum of two polynomials. -/
def polyAdd : List (BitVec 10) → List (BitVec 10) → List (BitVec 10)
  | [], q => q
  | p, [] => p
  | a :: p, b :: q => (a ^^^ b) :: polyAdd p q

/-- The state of the Berlekamp–Massey iteration. -/
structure Bm where
  c : List (BitVec 10)
  b : List (BitVec 10)
  len : Nat
  shift : Nat
  last : BitVec 10

/-- One step of Berlekamp–Massey. -/
def bmStep (s : List (BitVec 10)) (k : Bm) (n : Nat) : Bm :=
  let d := ((List.range (k.len + 1)).map fun i => gfMul (k.c.getD i 0) (s.getD (n - i) 0)).foldl (· ^^^ ·) 0
  let f := gfMul d (gfInv k.last)
  let c := polyAdd k.c (List.replicate k.shift 0 ++ k.b.map (gfMul f))
  if d = 0 then { k with shift := k.shift + 1 }
  else if 2 * k.len ≤ n then ⟨c, k.c, n + 1 - k.len, 1, d⟩
  else { k with c := c, shift := k.shift + 1 }

/-- The error locator and its degree. -/
def locator (s : List (BitVec 10)) : Bm := (List.range 30).foldl (bmStep s) ⟨[1], [1], 0, 1, 1⟩

/-- Decode a received word: the corrected word and the number of symbols corrected, or none where more than 15 are wrong. -/
def rsDecode (w : List (BitVec 10)) : Option (List (BitVec 10) × Nat) :=
  if w.length ≠ 544 then none
  else
    let s := syndromes w
    if s.all fun x => decide (x = 0) then some (w, 0)
    else
      let k := locator s
      if 15 < k.len then none
      else
        let lam := k.c.take (k.len + 1)
        let omega := (List.range 30).map fun n =>
          ((List.range (n + 1)).map fun i => gfMul (lam.getD i 0) (s.getD (n - i) 0)).foldl (· ^^^ ·) 0
        let dlam := (List.range lam.length).map fun i => if i % 2 = 0 then lam.getD (i + 1) 0 else 0
        let fix := (List.range 544).map fun i =>
          let x := gfExp (543 - i)
          let y := gfExp (1023 - (543 - i))
          if polyAt lam y = 0 then gfMul x (gfMul (polyAt omega y) (gfInv (polyAt dlam y))) else 0
        let w' := (w.zip fix).map fun p => p.1 ^^^ p.2
        let n := (fix.filter fun e => decide (e ≠ 0)).length
        if n = k.len ∧ (syndromes w').all (fun x => decide (x = 0)) then some (w', n) else none

end Sys2Proof.Machine
end

