-- ==== Sys2Proof/Machine/Links.lean ====
section
/-! DEFINITION. Fabric links (chapter 08): codewords, flits and replay, training, checks, power states, test modes. -/

namespace Sys2Proof.Machine

open Sys2Proof

/-! ### Events, states -/

/-- An event of a link, with the link and its bundle (R359). -/
def Mach.linkCount (m : Mach) (src : Nat) (l : LinkId) (n : Nat := 1) : Mach :=
  m.count ⟨src, 92 + l.val / 4, none, some l, m.bundleOf l, none⟩ n

/-- The training states, whose length link_train_timeout bounds. -/
def LinkState.training (s : LinkState) : Bool := [LinkState.baseAlign, .exchange, .rateStep, .equalise, .check].contains s

/-- Change a link's state, and its bundle's with it. -/
def Mach.setLink (m : Mach) (l : LinkId) (f : Link → Link) : Mach :=
  let m := m.modLink l f
  match m.bundleOf l with
  | some b => m.updateBundle b
  | none => m

/-- A link goes to HELD for a reason (R232); it keeps the rate it has trained to. -/
def Mach.holdLink (m : Mach) (l : LinkId) (reason : Nat) : Mach :=
  let r := (m.links[l]).rate
  (m.dropLink l .held).modLink l fun k => { k with heldReason := reason, rate := r }

/-- The training starts again from DETECT (R231). -/
def Mach.toDetect (m : Mach) (l : LinkId) : Mach := m.dropLink l .detect

/-! ### Equalisation (R235) -/

/-- The four FFE presets: magnitudes of c(−1) and c(1) in 64ths. -/
def ffePreset (n : Nat) : Nat × Nat := [(0, 0), (4, 8), (8, 12), (4, 20)].getD n (4, 8)

/-- The transmit FFE of the four lanes, as eq_snapshot keeps it: c(−1) and c(1) of lane 0 first. -/
def Link.ffeNums (k : Link) : List Nat := k.ffe.toList.flatMap fun p => [p.1, p.2]

/-- The FFE settings stored for the current rate; those in force where none are stored. -/
def Link.storedFfe (k : Link) : Vector (Nat × Nat) 4 :=
  match Sparse.find k.rate k.eqStored with
  | some s => Vector.ofFn fun i => (s.getD (2 * i.val) 0, s.getD (2 * i.val + 1) 0)
  | none => k.ffe

/-- EQUALISE begins: from ffe_preset at a fresh rate, from the stored settings after RETRAIN, an Ls exit or a fallback. -/
def Mach.equalise (m : Mach) (l : LinkId) (fresh : Bool) : Mach :=
  let p := ffePreset (m.num (0x2600 + l.val) 0x11)
  (m.setLink l fun k => { k with
    st := .equalise, eqQuiet := Vector.replicate 4 0, eqAsk := Vector.replicate 4 (3, 0), eqAns := Vector.replicate 4 0,
    ffe := if fresh then Vector.replicate 4 p else k.storedFfe }).sendFrames l

/-- A request of the neighbour for a step of a lane's FFE: the new setting and the answer. c(−1) and c(1) are never positive, so
an increment makes the magnitude smaller; c(0) follows from them and is never asked for by itself with success. -/
def ffeStep (p : Nat × Nat) (preset : Nat × Nat) (tap req : Nat) : (Nat × Nat) × Nat :=
  let pre := p.1
  let post := p.2
  let room := decide (pre + post + 1 ≤ 32)
  if req = 0 ∨ tap = 3 then (p, 0)
  else if req = 3 then (preset, 1)
  else if tap = 0 then
    if req = 1 then (if 0 < pre then ((pre - 1, post), 1) else (p, 2))
    else if pre < 16 && room then ((pre + 1, post), 1) else (p, 2)
  else if tap = 2 then
    if req = 1 then (if 0 < post then ((pre, post - 1), 1) else (p, 2))
    else if post < 24 && room then ((pre, post + 1), 1) else (p, 2)
  else (p, 2)

/-! ### Training content (R230) -/

/-- The identity in a training content: serial to rate_cap. The other fields change from frame to frame (log 29). -/
def identityOf (n : Nat) : Nat := bits n 239 108

/-- The highest rate code in both caps, below a bound. -/
def Mach.rateBelow (m : Mach) (l : LinkId) (bound : Nat) : Option Nat :=
  let cap := bits (m.links[l]).nbr.toNat 111 108
  [3, 2, 1, 0].find? fun r => decide (r < bound) && bit cap r && bit (m.rateCap l) r

/-- EXCHANGE: the neighbour's objects are filled, and R232 decides. A stale role epoch lets the training go on and ends in HELD
(retrainHeld). -/
def Mach.exchange (m : Mach) (l : LinkId) (content : BitVec 256) : Mach :=
  let n := content.toNat
  let m := m.modLink l fun k => { k with nbr := content, level := min (m.num 0x2630 1) (bits n 161 154) }
  match m.identify l n with
  | (none, reason, _) => m.holdLink l reason
  | (some b, _, relabel) =>
    let stale := decide (bits n 127 112 ≠ (m.net.bundles[b]).epoch.toNat)
    let m := if relabel then m.linkCount 0x500A l else m
    let m := if stale then m else m.modBundle b fun k => { k with members := l :: k.members.filter (· ≠ l) }
    let m := m.modLink l fun k => { k with heldReason := 0, retrainHeld := stale, targetRate := (m.rateBelow l 4).getD 0, rate := 0 }
    m.equalise l true

/-! ### CHECK (R233, R234) -/

/-- CHECK begins. -/
def Mach.startCheck (m : Mach) (l : LinkId) : Mach :=
  m.setLink l fun k => { k with
    st := .check, checkOwn := none, checkNbr := none, checkBad := 0, checkSer := 0, checkSymbols := 0, ident := [], stepReady := false,
    stepSeen := Vector.replicate 4 0, stepSent := 0 }

/-- Send every unacknowledged flit again (R227). -/
def Mach.replay (m : Mach) (l : LinkId) : Mach :=
  let k := m.links[l]
  (m.linkCount 0x5002 l).send (.linkReplay l (k.lastAck + 1))

/-- The module wants the link in Ls: by power_request, or by its module state (R237, R382). -/
def Mach.wantsLs (m : Mach) (l : LinkId) : Bool :=
  decide (m.num (0x2600 + l.val) 0x21 = 2) || decide (m.pwr.modState = .standby) || decide (m.pwr.transition = some .standby)

/-- Ask the neighbour for Ls. -/
def Mach.askLs (m : Mach) (l : LinkId) : Mach := if (m.links[l]).flows then m.send (.power l 4) else m

/-- A link enters L0: with fresh sequences after DETECT; after RETRAIN the flits not acknowledged go out again and nothing is lost
(R227, R228). A request for Ls that is still pending is made now (R237). -/
def Mach.enterL0 (m : Mach) (l : LinkId) : Mach :=
  let k := m.links[l]
  if k.retrainHeld then m.holdLink l 4
  else
    let m := if k.fromRetrain && decide (k.replay ≠ []) then m.replay l else m
    let m := m.setLink l fun k => { k with
      st := .l0, fromRetrain := false, fromLs := false, fallback := false, stepReady := false, passed := k.rate, targetRate := k.rate,
      replays := 0, reqSent := false }
    if m.wantsLs l then m.askLs l else m

/-- CHECK failed: back to the next lower rate both sides enable, or to DETECT from the base rate (R233). -/
def Mach.checkFailed (m : Mach) (l : LinkId) : Mach :=
  let k := m.links[l]
  match m.rateBelow l k.rate with
  | none => m.toDetect l
  | some r => (m.linkCount 0x500B l).setLink l fun k => { k with
      st := .rateStep, rate := r, targetRate := r, fallback := true, stepReady := false, stepSeen := Vector.replicate 4 0, stepSent := 0 }

/-- Both results are known: L0 at the final rate, a further rate step, or a fallback. -/
def Mach.resolveCheck (m : Mach) (l : LinkId) : Mach :=
  let k := m.links[l]
  match k.checkOwn, k.checkNbr with
  | some a, some b =>
    if a && b then
      if k.fromRetrain ∨ k.fromLs ∨ k.fallback ∨ k.targetRate ≤ k.rate then m.enterL0 l
      else
        let both := fun (r : Nat) => decide (k.rate < r) && bit (m.rateCap l) r && bit (bits k.nbr.toNat 111 108) r
        let next := ((List.range 4).find? both).getD k.targetRate
        (m.modLink l fun k => { k with
          stepReady := true, stepSeen := Vector.replicate 4 0, stepSent := 0, passed := k.rate, targetRate := next, checkOwn := none,
          checkNbr := none }).sendFrames l
    else m.checkFailed l
  | _, _ => m

/-- The neighbour's content as the IDENT fragments bring it; none while a fragment of its identity is missing. -/
def Link.identContent (k : Link) : Option Nat :=
  if [3, 4, 5, 6, 7].all fun f => (Sparse.find f k.ident).isSome then
    some ((List.range 8).map fun f => Sparse.get 0 f k.ident * 2 ^ (32 * f)).sum
  else none

/-- LINK_CHECK_END (R234): the own side judges its CHECK and sends the result. -/
def execLinkCheckEnd (l : LinkId) (s : State) : Host.Outcome State Fault Refusal :=
  runs s fun m =>
    let k := m.links[l]
    if k.st ≠ .check ∨ k.checkOwn.isSome ∨ k.stepReady then m
    else
      let same := match k.identContent with
        | some n => decide (identityOf n = identityOf k.nbr.toNat)
        | none => false
      let differs := k.identContent.isSome && !same
      if differs ∧ (k.fromRetrain ∨ k.fromLs) then
        let n := k.identContent.getD 0
        (m.holdLink l (m.holdReason l n)).modLink l fun k => { k with nbr := BitVec.ofNat 256 n }
      else
        let ok := decide (k.checkBad = 0) && decide (k.checkSer * 10 ^ 9 ≤ m.num 0x2630 4 * k.checkSymbols) && same
        ((m.send (.checkBlock l ok)).modLink l fun k => { k with checkOwn := some ok }).resolveCheck l

/-- The neighbour's CHECK result. -/
def Mach.checkBlockIn (m : Mach) (l : LinkId) (pass : Bool) : Mach :=
  let k := m.links[l]
  if k.st ≠ .check ∨ k.stepReady then m else (m.modLink l fun k => { k with checkNbr := some pass }).resolveCheck l

/-- CHECK_BLOCK (R234). -/
def execCheckBlock (l : LinkId) (pass : Bool) (s : State) : Host.Outcome State Fault Refusal := runs s fun m => m.checkBlockIn l pass

/-! ### Training rows (R229 to R233, R235) -/

/-- LINK_SIGNAL_DETECT (R231). -/
def execLinkSignalDetect (l : LinkId) (s : State) : Host.Outcome State Fault Refusal :=
  runs s fun m => if (m.links[l]).st = .detect then (m.modLink l fun k => { k with st := .baseAlign }).sendFrames l else m

/-- LOSS_OF_SIGNAL (R231): in any state but DISABLED, L1 and LS. -/
def execLossOfSignal (l : LinkId) (s : State) : Host.Outcome State Fault Refusal :=
  runs s fun m =>
    let st := (m.links[l]).st
    if st = .disabled ∨ st = .l1 ∨ st = .ls then m else (m.linkCount 0x5009 l).toDetect l

/-- BASE_ALIGN_COMPLETE (R230, R231): lane map and polarity are known; more than 32 ns of skew fails. -/
def execBaseAlignComplete (l : LinkId) (laneMap : List (Fin 4)) (inverted : BitVec 4) (skewNs : Nat) (s : State) :
    Host.Outcome State Fault Refusal :=
  runs s fun m =>
    if (m.links[l]).st ≠ .baseAlign ∨ laneMap.length ≠ 4 ∨ !decide laneMap.Nodup then m
    else if 32 < skewNs then m.toDetect l
    else (m.modLink l fun k => { k with st := .exchange, laneMap := laneMap, inverted := inverted }).sendFrames l

/-- A frame in EQUALISE, on lane i: a step of the own transmitter where the neighbour asks for one, and what the own receiver asks
for next; a frame in which both ask for nothing counts toward convergence (R235). -/
def Mach.equaliseFrame (m : Mach) (l : LinkId) (i : Fin 4) (n : Nat) (ask : Fin 4 × Fin 4) : Mach :=
  let p := ffePreset (m.num (0x2600 + l.val) 0x11)
  let r := ffeStep ((m.links[l]).ffe[i]) p (bits n 101 100) (bits n 99 98)
  m.modLink l fun k => { k with
    ffe := Vec.upd k.ffe i fun _ => r.1, eqAns := Vec.upd k.eqAns i fun _ => r.2, eqAsk := Vec.upd k.eqAsk i fun _ => ask,
    eqQuiet := Vec.upd k.eqQuiet i fun q => if bits n 101 100 = 3 ∧ ask.1 = 3 then q + 1 else 0 }

/-- TRAINING_FRAME (R229, R230, R232, R233, R235): the bits of one received lane, its polarity corrected. Bits that are no frame, and a
frame whose crc16 fails, which is counted, are ignored. In EXCHANGE a frame tells who the neighbour is; in RETRAIN it starts
EQUALISE; in EQUALISE it asks for FFE steps, and one with STEP_READY counts toward the rate step; these two are answered by a frame on
every lane. `ask` is what the own receiver wants of the neighbour's transmitter. -/
def execTrainingFrame (l : LinkId) (f : LaneFrame) (s : State) : Host.Outcome State Fault Refusal :=
  runs s fun m => m.over [linkIsland l] fun m =>
    let k := m.links[l]
    match frameContent (if k.inverted.getLsbD f.lane.val then f.bits.map not else f.bits) with
    | none => m
    | some content =>
      let n := content.toNat
      let i : Fin 4 := Fin.ofNat 4 (bits n 87 86)
      if !([LinkState.exchange, .equalise, .check, .retrain].contains k.st) then m
      else if bits n 255 240 ≠ contentCrc (n % 2 ^ 240) then m.linkCount 0x5007 l
      else match k.st with
        | .exchange => m.exchange l content
        | .retrain => m.equalise l false
        | .check =>
          if !k.stepReady then m
          else
            let same := decide (bits n 105 102 = 13) && decide (bits n 107 106 = k.targetRate)
            (m.modLink l fun k => { k with stepSeen := Vec.upd k.stepSeen i fun q => if same then q + 1 else 0 }).sendFrames l
        | _ => (m.equaliseFrame l i n f.ask).sendFrames l

/-- The receive settings of the four lanes as adapted, with what ctle_mode and dfe_enable fix (R235): per lane CTLE, then eight DFE
taps. -/
def Mach.rxSettings (m : Mach) (l : LinkId) (settings : List Nat) : List Nat :=
  let mode := m.num (0x2600 + l.val) 0x10
  let dfe := decide (m.num (0x2600 + l.val) 0x12 = 1)
  (List.range 36).map fun i =>
    if i % 9 = 0 then (if mode = 0 then settings.getD i 0 else mode - 1) else if dfe then settings.getD i 0 else 0

/-- EQUALISE_CONVERGED (R235): after 64 consecutive frames with eq_tap none on every lane the settings of the rate are stored, the FFE of each
lane and the receive settings the row names, and CHECK starts. -/
def execEqualiseConverged (l : LinkId) (settings : List Nat) (s : State) : Host.Outcome State Fault Refusal :=
  runs s fun m =>
    let k := m.links[l]
    if k.st ≠ .equalise ∨ !k.eqQuiet.toList.all fun q => decide (64 ≤ q) then m
    else (m.modLink l fun k => { k with eqStored := Sparse.put k.rate (k.ffeNums ++ m.rxSettings l settings) k.eqStored }).startCheck l

/-- Send frames on every lane n times. -/
def Mach.sendTimes (m : Mach) (l : LinkId) : Nat → Mach
  | 0 => m
  | n + 1 => Mach.sendTimes (m.sendFrames l) l n

/-- RATE_STEP_SWITCH (R233): both sides have named the target 8 times on every lane; 8 more frames go out, and the link switches. -/
def execRateStepSwitch (l : LinkId) (s : State) : Host.Outcome State Fault Refusal :=
  runs s fun m =>
    let k := m.links[l]
    if k.st = .check ∧ k.stepReady ∧ k.agreed then
      let m := m.sendTimes l (8 - k.stepSent)
      m.setLink l fun k => { k with st := .rateStep, rate := k.targetRate, stepReady := false, stepSeen := Vector.replicate 4 0,
                                    stepSent := 0, targetRate := (m.rateBelow l 4).getD k.targetRate }
    else m

/-- RATE_STEP_LOCKED (R233, R235, R237): the lanes lock at the new rate, or on an Ls exit at the stored one. -/
def execRateStepLocked (l : LinkId) (s : State) : Host.Outcome State Fault Refusal :=
  runs s fun m =>
    let k := m.links[l]
    if k.st = .rateStep then m.equalise l (!k.fallback)
    else if k.st = .ls ∧ k.fromLs then m.equalise l false
    else m

/-- LINK_TRAIN_TIMEOUT (R231). -/
def execLinkTrainTimeout (l : LinkId) (s : State) : Host.Outcome State Fault Refusal :=
  runs s fun m => if (m.links[l]).st.training then (m.linkCount 0x5008 l).toDetect l else m

/-! ### RETRAIN and replay (R227, R228, R231) -/

/-- A link in L0 or L1 enters RETRAIN; what it holds stays. -/
def Mach.retrain (m : Mach) (l : LinkId) : Mach :=
  if (m.links[l]).flows then
    (m.setLink l fun k => { k with
      st := .retrain, fromRetrain := true, replays := 0, rxPart := none, rxWaiting := true, reqSent := false }).sendFrames l
  else m

/-- LINK_CW_BAD_LIMIT (R231). -/
def execLinkCwBadLimit (l : LinkId) (s : State) : Host.Outcome State Fault Refusal := runs s fun m => m.retrain l

/-- LINK_RETRAIN_HOLD_EXPIRY (R228): the link has not come back to L0 in time. -/
def execLinkRetrainHoldExpiry (l : LinkId) (s : State) : Host.Outcome State Fault Refusal :=
  runs s fun m =>
    let k := m.links[l]
    if k.st = .retrain ∨ (k.fromRetrain ∧ k.st.training) then m.toDetect l else m

/-- A replay, or RETRAIN after link_replay_limit replays without an advance (R227, R228). -/
def Mach.tryReplay (m : Mach) (l : LinkId) : Mach :=
  let k := m.links[l]
  if m.num 0x2630 6 ≤ k.replays then m.retrain l
  else (m.replay l).modLink l fun k => { k with replays := k.replays + 1 }

/-- LINK_ACK_TIMEOUT (R227): flits are outstanding and the ACK has not advanced. -/
def execLinkAckTimeout (l : LinkId) (s : State) : Host.Outcome State Fault Refusal :=
  runs s fun m => if (m.links[l]).st = .l0 ∧ (m.links[l]).replay ≠ [] then m.tryReplay l else m

/-! ### Codewords (R221 to R226, R248) -/

/-- A block of a codeword: sync header and descrambled payload. -/
structure Block where
  sync : Nat
  payload : BitVec 64
  deriving DecidableEq, Repr

/-- Descramble bits with x^58 + x^39 + 1; the state holds the last 58 scrambled bits, the newest in bit 0. -/
def descramble : BitVec 58 → List Bool → BitVec 58 × List Bool
  | st, [] => (st, [])
  | st, b :: rest =>
    let r := descramble (BitVec.ofNat 58 (st.toNat * 2 + (if b then 1 else 0))) rest
    (r.1, (b ^^ (st.getLsbD 38 ^^ st.getLsbD 57)) :: r.2)

/-- The blocks of a message's bits behind the marker. -/
def blocksOf : Nat → BitVec 58 → List Bool → BitVec 58 × List Block
  | 0, st, _ => (st, [])
  | k + 1, st, bs =>
    let d := descramble st ((bs.drop 2).take 64)
    let r := blocksOf k d.1 (bs.drop 66)
    (r.1, ⟨bitsNat (bs.take 2), BitVec.ofNat 64 (bitsNat d.2)⟩ :: r.2)

/-- The message bits of a word's first 514 symbols. -/
def messageBits (w : List (BitVec 10)) : List Bool := (w.take 514).flatMap fun x => natBits 10 x.toNat

/-- The bits that crc16 of a codeword covers (R223). -/
def coveredBits (marker : Nat) (bs : List Block) : List Bool :=
  natBits 42 marker ++ bs.flatMap fun b => natBits 2 b.sync ++ natBits 64 b.payload.toNat

/-- A codeword as received: its marker and blocks where it is good, the corrected symbols, and the scrambler's state. -/
structure Codeword where
  good : Bool
  corrected : Nat
  marker : Nat
  blocks : List Block
  scram : BitVec 58
  deriving DecidableEq, Repr

/-- Decode a codeword (R222, R223, R226). -/
def decodeCodeword (st : BitVec 58) (w : List (BitVec 10)) : Codeword :=
  let r := rsDecode w
  let bs := messageBits ((r.map Prod.fst).getD w)
  let marker := bitsNat (bs.take 58)
  let b := blocksOf 77 st (bs.drop 58)
  ⟨r.isSome && decide (bits marker 57 42 = (crc16 (coveredBits marker b.2)).toNat), (r.map Prod.snd).getD 0, marker, b.2, b.1⟩

/-- Bytes of a flit from its eight payloads. -/
def flitBytes (ps : List Bytes) : Bytes := ps.flatten

/-- Flits in the header's packet. -/
def packetFlits (first : Bytes) : Nat :=
  let h := hdrOf ⟨BitVec.ofNat 256 (leNat (first.take 32)), []⟩
  cdiv (32 + h.payload) 64

/-- An accepted flit joins its packet; a whole packet has arrived (R243). -/
def Link.gather (k : Link) (b : Bytes) : Link :=
  let fs := k.rxFlits ++ [b]
  if packetFlits (fs.headD []) ≤ fs.length then
    let all := fs.flatten
    let hdr : BitVec 256 := BitVec.ofNat 256 (leNat (all.take 32))
    let p : Packet := ⟨hdr, slice 32 (hdrOf ⟨hdr, []⟩).payload all⟩
    { k with rxFlits := [], arrived := k.arrived ++ [p] }
  else { k with rxFlits := fs }

/-- A flit has been received in good codewords: accepted, a duplicate, or out of order (R226). -/
def Mach.flitIn (m : Mach) (l : LinkId) (seq : BitVec 12) (b : Bytes) : Mach :=
  let k := m.links[l]
  if seq = k.rxSeq then
    (m.linkCount 0x500E l).modLink l fun k => ({ k with rxSeq := k.rxSeq + 1, rxWaiting := false, sendNak := false }).gather b
  else if seqBefore 2047 seq k.rxSeq then m.linkCount 0x5003 l
  else m.modLink l fun k => { k with rxWaiting := true, sendNak := true }

/-- Walk through the data blocks of a codeword: the flit in progress goes on, the first new flit starts at flit_offset with
flit_seq, the next ones follow it. -/
def Mach.flitsIn (m : Mach) (l : LinkId) (seq : BitVec 12) (offset : Nat) : Nat → Option (BitVec 12) → List Block → Mach
  | _, _, [] => m
  | i, next, b :: rest =>
    if b.sync ≠ 1 then Mach.flitsIn m l seq offset (i + 1) next rest
    else
      let next := if i = offset then some seq else next
      let bytes := natLe 8 b.payload.toNat
      let step := fun (q : BitVec 12) (got : List Bytes) (next : Option (BitVec 12)) =>
        let got := got ++ [bytes]
        if got.length = 8 then
          Mach.flitsIn ((m.modLink l fun k => { k with rxPart := none }).flitIn l q (flitBytes got)) l seq offset (i + 1) next rest
        else Mach.flitsIn (m.modLink l fun k => { k with rxPart := some (q, got) }) l seq offset (i + 1) next rest
      match (m.links[l]).rxPart, next with
      | some (q, got), _ => step q got (if i = offset then some seq else next)
      | none, some q => step q [] (some (q + 1))
      | none, none => Mach.flitsIn m l seq offset (i + 1) next rest

/-- Credits of a VC return: oldest packets first (R248, R253). -/
def creditPkts (v : VcId) : Nat → List (VcId × Nat) → List (VcId × Nat)
  | _, [] => []
  | n, (u, f) :: rest =>
    if u ≠ v then (u, f) :: creditPkts v n rest
    else if n < f then (u, f - n) :: rest
    else creditPkts v (n - f) rest

/-- The acknowledgement and the credits of a marker (R227, R248). -/
def Mach.markerIn (m : Mach) (l : LinkId) (marker : Nat) : Mach :=
  let k := m.links[l]
  let kind := bits marker 29 28
  let ack : BitVec 12 := BitVec.ofNat 12 (bits marker 41 30)
  let v : VcId := Fin.ofNat 8 (bits marker 8 6)
  let n := bits marker 5 0
  let m := m.modLink l fun k => { k with sent := Vec.upd k.sent v (· - n), uncredited := creditPkts v n k.uncredited }
  if kind ≠ 1 ∧ kind ≠ 2 then m
  else
    let d := (ack - k.lastAck).toNat
    if (k.txSeq - 1 - k.lastAck).toNat < d then (m.linkCount 0x5006 l).retrain l
    else
      let m := m.modLink l fun k => { k with lastAck := ack, replay := k.replay.drop d, replays := if 0 < d then 0 else k.replays }
      if kind = 2 ∧ (m.links[l]).replay ≠ [] then m.tryReplay l else m

/-! ### Power states (R236, R237) -/

/-- The link has nothing unacknowledged and no flit ready. -/
def Link.quiet (k : Link) : Bool := decide (k.replay = []) && decide (k.txQ = []) && k.txNow.isNone && decide (k.rxFlits = [])

/-- A side may ask for L1. -/
def Mach.mayL1 (m : Mach) (l : LinkId) : Bool :=
  decide ((m.links[l]).st = .l0) && (m.links[l]).quiet && decide (m.num (0x2600 + l.val) 0x20 ≠ 0)

/-- L1_REQ received: crossing requests acknowledge each other. -/
def Mach.l1ReqIn (m : Mach) (l : LinkId) : Mach :=
  let k := m.links[l]
  if k.st ≠ .l0 then m
  else if k.reqSent then m.setLink l fun k => { k with st := .l1, reqSent := false }
  else if m.mayL1 l then (m.send (.power l 2)).setLink l fun k => { k with st := .l1 }
  else m.send (.power l 3)

/-- L1_ACK received. -/
def Mach.l1AckIn (m : Mach) (l : LinkId) : Mach :=
  let k := m.links[l]
  if k.st = .l0 ∧ k.reqSent then m.setLink l fun k => { k with st := .l1, reqSent := false } else m

/-- L1_NAK received. -/
def Mach.l1NakIn (m : Mach) (l : LinkId) : Mach := m.modLink l fun k => { k with reqSent := false }

/-- L1 ends. -/
def Mach.exitL1 (m : Mach) (l : LinkId) : Mach :=
  if (m.links[l]).st = .l1 then m.setLink l fun k => { k with st := .l0, reqSent := false } else m

/-- LS_REQ received. -/
def Mach.lsReqIn (m : Mach) (l : LinkId) : Mach :=
  let k := m.links[l]
  if !k.flows then m
  else if k.replay = [] then (m.send (.power l 5)).setLink l fun k => { k with st := .ls, reqSent := false, fromLs := false }
  else m.send (.power l 6)

/-- LS_ACK received: PLL, CDR and transmitters go off. -/
def Mach.lsAckIn (m : Mach) (l : LinkId) : Mach :=
  if (m.links[l]).flows ∧ m.wantsLs l then m.setLink l fun k => { k with st := .ls, reqSent := false, fromLs := false } else m

/-- The Ls exit starts (R237): base-rate frames go out. Once the lanes lock at the stored rate, EQUALISE from the stored settings and
CHECK follow. -/
def Mach.exitLs (m : Mach) (l : LinkId) : Mach :=
  if (m.links[l]).st = .ls ∧ !(m.links[l]).fromLs then (m.modLink l fun k => { k with fromLs := true }).sendFrames l else m

/-- LS_NAK received: the request is made again while Ls is still wanted. -/
def Mach.lsNakIn (m : Mach) (l : LinkId) : Mach := if m.wantsLs l then m.askLs l else m

/-- A POWER control block (R224). -/
def Mach.powerIn (m : Mach) (l : LinkId) (code : Nat) : Mach :=
  match code with
  | 1 => m.l1ReqIn l
  | 2 => m.l1AckIn l
  | 3 => m.l1NakIn l
  | 4 => m.lsReqIn l
  | 5 => m.lsAckIn l
  | _ => m.lsNakIn l

/-- An IDENT fragment has come. In HELD, where nothing but IDLE and IDENT is sent, the neighbour's content is looked at again once it
is whole (R231). -/
def Mach.identIn (m : Mach) (l : LinkId) : Mach :=
  if (m.links[l]).st ≠ .held then m
  else match (m.links[l]).identContent with
    | some n => (m.modLink l fun k => { k with nbr := BitVec.ofNat 256 n, ident := [] }).reevaluate l n
    | none => m

/-- A control block (R224). -/
def Mach.controlIn (m : Mach) (l : LinkId) (p : Nat) : Mach :=
  match bits p 63 56 with
  | 0 => m
  | 1 => if 1 ≤ bits p 55 52 ∧ bits p 55 52 ≤ 6 then m.powerIn l (bits p 55 52) else m
  | 2 => (m.modLink l fun k => { k with ident := Sparse.put (bits p 55 53) (bits p 31 0) k.ident }).identIn l
  | 3 => m.checkBlockIn l (bit p 55)
  | _ => m.linkCount 0x5005 l

/-! ### Test patterns (R239) -/

/-- How far back the bits lie whose sum is the next bit of a test pattern: PRBS7, PRBS13, PRBS31. -/
def prbsTaps (mode : Nat) : List Nat :=
  match mode with
  | 1 => [7, 6]
  | 2 => [13, 12, 2, 1]
  | _ => [31, 28]

/-- Length of a pattern's register. -/
def prbsLen (mode : Nat) : Nat := (prbsTaps mode).headD 31

/-- The next bit of a pattern after its last ones, newest first. -/
def prbsNext (mode : Nat) (reg : List Bool) : Bool := ((prbsTaps mode).filter fun t => reg.getD (t - 1) false).length % 2 = 1

/-- Bits that differ from the pattern that goes on from a register, and the register behind them. -/
def prbsCheck (mode : Nat) : List Bool → List Bool → Nat × List Bool
  | reg, [] => (0, reg)
  | reg, b :: rest =>
    let p := prbsNext mode reg
    let r := prbsCheck mode (p :: reg.take (prbsLen mode - 1)) rest
    (r.1 + (if b = p then 0 else 1), r.2)

/-- Bits of a lane in a block of symbols (R222). -/
def laneBits (symbols : List (BitVec 10)) (i : Nat) : List Bool :=
  (List.range (symbols.length / 4)).flatMap fun k => natBits 10 (symbols.getD (4 * k + i) 0).toNat

/-- A lane's checker takes received bits: a locked one counts errors, one that is not locked takes its register from the bits and is
locked where all others follow the pattern (log 77). -/
def Link.prbsLane (k : Link) (mode : Nat) (i : Fin 4) (bs : List Bool) : Link :=
  if k.prbsLocked.getLsbD i.val then
    let r := prbsCheck mode (k.prbsReg[i]) bs
    { k with prbsErrors := Vec.upd k.prbsErrors i (· + BitVec.ofNat 32 r.1), prbsReg := Vec.upd k.prbsReg i fun _ => r.2 }
  else
    let seed := (bs.take (prbsLen mode)).reverse
    let r := prbsCheck mode seed (bs.drop (prbsLen mode))
    if seed.contains true ∧ r.1 = 0 then
      { k with prbsLocked := k.prbsLocked ||| BitVec.ofNat 4 (2 ^ i.val), prbsReg := Vec.upd k.prbsReg i fun _ => r.2 }
    else k

/-- Bit errors that inject adds to a lane in n bits: kind 1 flips one bit in every interval on the lanes of its mask. -/
def Mach.injected (m : Mach) (l : LinkId) (i n : Nat) : Nat :=
  let v := m.num (0x2600 + l.val) 0x19
  let every := bits v 18 0
  let done := (m.links[l]).injectBits
  if bits v 31 28 = 1 ∧ bit (bits v 27 24) i ∧ 0 < every then (done + n) / every - done / every else 0

/-- What a link in TEST receives (R239): bits for the checkers, near-end the own pattern with what inject adds, far-end bits to be
sent back unchanged. -/
def Mach.testIn (m : Mach) (l : LinkId) (symbols : List (BitVec 10)) : Mach :=
  let mode := m.num (0x2600 + l.val) 0x18
  let n := symbols.length / 4 * 10
  if mode = 5 then m.send (.looped l symbols)
  else if mode = 4 then
    m.modLink l fun k => { k with
      prbsLocked := 0xF, injectBits := k.injectBits + n,
      prbsErrors := Vector.ofFn fun i => (k.prbsErrors[i]) + BitVec.ofNat 32 (m.injected l i.val n) }
  else m.modLink l fun k => (fins 3).foldl (fun k i => k.prbsLane mode i (laneBits symbols i.val)) k

/-- CODEWORD_RECEIVE (R221 to R227, R234, R236, R248): decoded and checked; a bad one is discarded whole; of a good one the
marker's acknowledgement and credits, the flits and the control blocks take effect. In TEST the symbols are the test's (R239). -/
def execCodewordReceive (l : LinkId) (symbols : List (BitVec 10)) (s : State) : Host.Outcome State Fault Refusal :=
  runs s fun m => m.over [linkIsland l] fun m =>
    let k := m.links[l]
    if k.st = .test then m.testIn l symbols
    else if !(k.flows || decide (k.st = .check) || decide (k.st = .held)) then m
    else
      let w := decodeCodeword k.rxScram symbols
      let m := m.modLink l fun k => { k with rxScram := w.scram }
      let m := m.linkCount 0x5000 l w.corrected
      let m := if k.st = .check then m.modLink l fun k => { k with
          checkSer := k.checkSer + w.corrected, checkSymbols := k.checkSymbols + 544, checkBad := k.checkBad + (if w.good then 0 else 1) }
        else m
      if !w.good then
        (m.linkCount 0x5001 l).modLink l fun k => if k.flows then { k with rxPart := none, rxWaiting := true, sendNak := true } else k
      else
        let data := w.blocks.any fun b => decide (b.sync = 1)
        let m := if data ∧ k.flows then m.exitL1 l else m
        let m := if data then m.modLink l fun k => { k with reqSent := false } else m
        let m := if k.flows then m.markerIn l w.marker else m
        let m := if k.flows then
            m.flitsIn l (BitVec.ofNat 12 (bits w.marker 27 16)) (bits w.marker 15 9) 0 none w.blocks
          else m
        (w.blocks.filter fun b => decide (b.sync = 2)).foldl (fun m b => m.controlIn l b.payload.toNat) m

/-- L1_IDLE_TIMEOUT (R236). -/
def execL1IdleTimeout (l : LinkId) (s : State) : Host.Outcome State Fault Refusal :=
  runs s fun m =>
    if m.mayL1 l ∧ !(m.links[l]).reqSent then (m.send (.power l 1)).modLink l fun k => { k with reqSent := true } else m

/-- L1_REQ (R236). -/
def execL1Req (l : LinkId) (s : State) : Host.Outcome State Fault Refusal := runs s fun m => m.l1ReqIn l

/-- L1_ACK (R236). -/
def execL1Ack (l : LinkId) (s : State) : Host.Outcome State Fault Refusal := runs s fun m => m.l1AckIn l

/-- L1_NAK (R236). -/
def execL1Nak (l : LinkId) (s : State) : Host.Outcome State Fault Refusal := runs s fun m => m.l1NakIn l

/-- L1_KEEPALIVE (R236): one IDLE codeword. -/
def execL1Keepalive (l : LinkId) (s : State) : Host.Outcome State Fault Refusal :=
  runs s fun m => if (m.links[l]).st = .l1 then m.send (.idle l) else m

/-- L1_EXIT (R236). -/
def execL1Exit (l : LinkId) (s : State) : Host.Outcome State Fault Refusal := runs s fun m => m.exitL1 l

/-- The writer of power_request (R237): 0 or 2. -/
def wrPowerRequest (l : LinkId) : Writer := fun m _ v =>
  Wr.guard (decide (v.toNum ≠ 0) && decide (v.toNum ≠ 2)) abRange <|
    let m := m.setObj (0x2600 + l.val) 0x21 v
    .ok (if v.toNum = 2 then m.askLs l else m.exitLs l)

/-- POWER_REQUEST_LS (R237). -/
def execPowerRequestLs (ch : Channel) (l : LinkId) (s : State) : Host.Outcome State Fault Refusal :=
  runs s fun m => m.dictWrite ch (0x2600 + l.val) 0x21 [2] (wrPowerRequest l)

/-- POWER_REQUEST_L0 (R237). -/
def execPowerRequestL0 (ch : Channel) (l : LinkId) (s : State) : Host.Outcome State Fault Refusal :=
  runs s fun m => m.dictWrite ch (0x2600 + l.val) 0x21 [0] (wrPowerRequest l)

/-- LS_REQ (R237). -/
def execLsReq (l : LinkId) (s : State) : Host.Outcome State Fault Refusal := runs s fun m => m.lsReqIn l

/-- LS_ACK (R237). -/
def execLsAck (l : LinkId) (s : State) : Host.Outcome State Fault Refusal := runs s fun m => m.lsAckIn l

/-- LS_NAK (R237): the link stays where it is, and asks again while Ls is wanted. -/
def execLsNak (l : LinkId) (s : State) : Host.Outcome State Fault Refusal := runs s fun m => m.lsNakIn l

/-- LS_WAKE (R237): the neighbour's signal, or a ready flit. -/
def execLsWake (l : LinkId) (s : State) : Host.Outcome State Fault Refusal := runs s fun m => m.exitLs l

/-- LS_WAKE_TIMEOUT (R237). -/
def execLsWakeTimeout (l : LinkId) (s : State) : Host.Outcome State Fault Refusal :=
  runs s fun m =>
    let k := m.links[l]
    if k.fromLs ∧ (k.st = .ls ∨ k.st.training) then (m.linkCount 0x500C l).toDetect l else m

/-! ### Objects (R239, R240) -/

/-- The writer of link_enable. -/
def wrLinkEnable (l : LinkId) : Writer := fun m _ v =>
  let m := m.setObj (0x2600 + l.val) 2 v
  .ok (if v.toNum = 0 then m.dropLink l .disabled
    else if (m.links[l]).st = .disabled ∧ m.mayTrain l then m.dropLink l .detect else m)

/-- LINK_ENABLE (R231). -/
def execLinkEnable (ch : Channel) (l : LinkId) (s : State) : Host.Outcome State Fault Refusal :=
  runs s fun m => m.dictWrite ch (0x2600 + l.val) 2 [1] (wrLinkEnable l)

/-- LINK_DISABLE (R231). -/
def execLinkDisable (ch : Channel) (l : LinkId) (s : State) : Host.Outcome State Fault Refusal :=
  runs s fun m => m.dictWrite ch (0x2600 + l.val) 2 [0] (wrLinkEnable l)

/-- The writer of test_mode (R239): modes 0 to 5, while the link is DISABLED, HELD or in DETECT; 0 clears a test. -/
def wrTestMode (l : LinkId) : Writer := fun m _ v =>
  let st := (m.links[l]).st
  let free := [LinkState.disabled, .held, .detect].contains st
  Wr.guard (decide (5 < v.toNum)) abRange <|
    Wr.guard (!(free || (decide (st = .test) && decide (v.toNum = 0)))) abState <|
      let m := m.setObj (0x2600 + l.val) 0x18 v
      .ok (if v.toNum ≠ 0 then
        let m := m.dropLink l .test
        if v.toNum = 5 then m else m.send (.pattern l v.toNum (m.num (0x2600 + l.val) 3))
      else if st = .test then m.resetLink l else m)

/-- TEST_MODE (R239). -/
def execTestMode (ch : Channel) (l : LinkId) (data : Bytes) (s : State) : Host.Outcome State Fault Refusal :=
  runs s fun m => m.dictWrite ch (0x2600 + l.val) 0x18 data (wrTestMode l)

/-- The writer of inject (R239): kinds 0 to 2. The errors go into what the link sends: they change timing only, and the checker of a
near-end loopback sees them. -/
def wrInject (l : LinkId) : Writer := fun m _ v =>
  Wr.guard (decide (2 < bits v.toNum 31 28)) abRange
    (.ok ((m.setObj (0x2600 + l.val) 0x19 v).modLink l fun k => { k with injectBits := 0 }))

/-- INJECT (R239). -/
def execInject (ch : Channel) (l : LinkId) (data : Bytes) (s : State) : Host.Outcome State Fault Refusal :=
  runs s fun m => m.dictWrite ch (0x2600 + l.val) 0x19 data (wrInject l)

/-- The writer of link_reset. -/
def wrLinkReset (l : LinkId) : Writer := fun m _ _ => .ok (m.resetLink l)

/-- LINK_RESET (R240). -/
def execLinkReset (ch : Channel) (l : LinkId) (data : Bytes) (s : State) : Host.Outcome State Fault Refusal :=
  runs s fun m => m.dictWrite ch (0x2600 + l.val) 0x22 data (wrLinkReset l)

end Sys2Proof.Machine
end

