-- ==== Sys2Proof/Machine/Reset.lean ====
section
/-! DEFINITION. What resets and power states do to the machine (R382 to R397): what each scope loses, what comes back, and the
release of the datapath. The retention table of R394 is followed group by group. -/

namespace Sys2Proof.Machine

open Sys2Proof

/-! ### What is lost -/

/-- Objects of some retention classes fall back to their defaults (R394). -/
def Mach.forget (m : Mach) (lost : List Kept) : Mach :=
  { m with dict := m.dict.filter fun e => match objRow? (e.1 / 256) (e.1 % 256) with
      | some r => !lost.contains r.kept
      | none => true }

/-- Scratchpad reads as zeros (R82). -/
def Mach.loseSpad (m : Mach) : Mach := { m with spad := [], mem := { m.mem with badWords := [], weakWords := [] } }

/-- A slot that holds nothing (R300). -/
def SnapSlot.free : SnapSlot := ⟨.free, 0, [], 0, Vector.replicate 4 none, []⟩

/-- DRAM contents are undefined, every slot is FREE (R389, R394). -/
def Mach.loseDram (m : Mach) : Mach :=
  { m with
    dram := [],
    mem := { m.mem with badUnits := [], weakUnits := [], zeroed := [], dramEpochs := m.mem.dramEpochs.map (· + 1), dramState := 0,
                        chans := m.mem.chans.map fun k => { k with st := 0 } },
    drover := { m.drover with slots := Vector.replicate 2 SnapSlot.free, buddies := Vector.replicate 2 ⟨0, 0⟩ } }

/-- DRAM is held in self-refresh with its contents; a slot that was FROZEN is FAILED, its patch map being lost (R389). -/
def Mach.keepDram (m : Mach) : Mach :=
  [0, 1].foldl (fun m k => if (m.drover.slots[k]).st = .frozen then
      (m.snapFailed k none).modSnap k fun s => { s with uncopied := [] } else m) (m.selfRefresh true)

/-- What the reset of a context's hub state leaves: DISABLED, fault_record, the Heddle dump and the last tags of its memory
windows kept, dispatch at next_expected_seq (R151, R287, R389). -/
def Ctx.cleared (x : Ctx) (next : Nat) : Ctx :=
  Ctx.fresh { Ctx.init with
    faultRec := x.faultRec, heddleDump := x.heddleDump, mws := x.mws.map fun w => { Mw.init with lastTag := w.lastTag } } next

/-- A link controller that has been reset: equaliser settings stand in NOR (R235, R394). -/
def Link.off (k : Link) : Link := { Link.init with eqStored := k.eqStored }

/-- A bundle whose links are all down. -/
def Bundle.stopped (b : Bundle) : Bundle :=
  { b with st := if b.role = 0 then .unused else .down, members := [], txSeq := Vector.replicate 8 0, rxSeq := Vector.replicate 8 0, gone := [] }

/-- Every engine and every slot stops without a record, queues and tables in hub SRAM are gone, every link is down (R389, R394:
hub SRAM F, event counters F, objects of Kept V F). -/
def Mach.stopAll (m : Mach) : Mach :=
  let m := allCtx.foldl (fun m c => m.setCtxState c .disabled .none) m
  let next := fun (c : CtxId) => m.num (ctxIdx c 0) 4
  { m with
    mv := ⟨[], [], [], 0, 3⟩, arrays := [], takeups := [], vecs := [], audits := [], lastLoom := 3, lastVec := 3,
    active := none, inactive := none, lastDispatch := 3,
    ctxs := Vector.ofFn fun c => (m.ctxs[c]).cleared (next c),
    shut := { Shut.init with named := m.shut.named, suspects := m.shut.suspects },
    links := m.links.map Link.off,
    net := { m.net with
      bundles := m.net.bundles.map Bundle.stopped,
      folds := Vector.ofFn fun k => { m.net.folds[k] with
        st := if m.num (0x2501 + k.val) 1 = 0 then .unplanned else .forming, deviation := 0, seen := [] },
      routes := [], turns := [], bank := false, rebuilding := true, built := none, graph := [], graphNext := [],
      generation := 0, timedOut := false, linkMap := [], reports := [],
      toldDrained := false, served := [], inject := [], localRx := [], tokens := [], floods := 0, fencesSeen := [] },
    host := ⟨4, 0, 0, []⟩,
    drover := { m.drover with
      ctxs := Vector.replicate 4 ⟨0, none, .none, 0, 0, none, none, false⟩, heldWrites := [], jobs := [], pieces := [] },
    counters := m.counters.map fun k => { k with value := 0, overflow := false, sample := 0 }, netState := .run,
    goose := { m.goose with tilesRun := 0, bands := Vector.replicate 4 none } }

/-- Every island but the management island is put into a state (R14, R16). -/
def Mach.datapathIslands (m : Mach) (st : IslandState) : Mach := m.setIslands ((List.range 133).map island) st

/-- Objects of Kept V that a channel holds are at their defaults (R379, R394). -/
def ChanState.forgetView (k : ChanState) : ChanState := { k with logFrom := 0, logSource := 0, nonce := none }

/-- The management island's own objects of Kept V are at their defaults after a reset of the datapath (R394); readings and states that
firmware goes on deriving are fresh values (log 88). -/
def Mach.forgetViews (m : Mach) : Mach :=
  (m.modMgmt fun g => { g with chans := g.chans.map ChanState.forgetView }).modPwr fun p => { p with inputW := 0, energyMj := 0 }

/-- The datapath part of a reset begins (R387, R389): everything but the management island stops. A module-scope error's refusal
ends with it (R322). -/
def Mach.beginDatapath (m : Mach) (lost : Bool) : Mach :=
  let m := (m.stopAll.loseSpad.forget [.v]).forgetViews.datapathIslands .reset
  let m := { m with islands := m.islands.map fun (x : Island) => { x with lastPass := 0 } }
  let m := if lost then m.loseDram else m.keepDram
  m.modPwr fun p => { p with modState := .mgmtOnly, transition := none, moduleScopeFault := false }

/-! ### The management island (R342, R375, R387) -/

/-- An update session ends; a bank that it left empty, in part written or not verified is INVALID (R375). -/
def Fw.endSession (w : Fw) : Fw :=
  let i : Fin 2 := w.running + 1
  let half := [FwSession.erasing, .receiving, .verifying].contains w.session
  { w with session := .idle, banks := if half then Vec.upd w.banks i fun b => { b with st := .invalid, digest := [] } else w.banks }

/-- What a channel keeps through a management-only reset, or through a warm one (R394: V K, V F). -/
def ChanState.reset (k : ChanState) (warm : Bool) : ChanState :=
  if warm then ⟨none, 0, 0, none, []⟩ else { k with copy := none }

/-- The management island restarts: transfers and queued log records are lost, a store in progress leaves the previous copy in
force (R342, R349, R394). The boot ROM runs next (R373). -/
def Mach.restartMgmt (m : Mach) (warm : Bool) : Mach :=
  let m := m.modMgmt fun g => { g with
    nmt := .initialisation, usdo := .idle, chans := g.chans.map fun k => k.reset warm, emcyQ := [], store := none, mgtRx := [],
    tpdoLast := Vector.replicate 4 [], canPassive := false }
  { m with log := { m.log with queue := [], discarded := 0, ceCounts := if warm then [] else m.log.ceCounts },
           fw := m.fw.endSession, pwr := { m.pwr with boot := .rom } }

/-! ### Resets, by scope (R387, R388) -/

/-- Rank of a reset's scope; the management-only reset has a scope of its own. -/
def ResetKind.rank : ResetKind → Nat
  | .cold => 4 | .warm => 3 | .dpLost => 2 | .dpKept => 1 | .mgmtOnly => 0

/-- A reset of equal or larger scope is running, and absorbs a request (R388). -/
def Mach.absorbs (m : Mach) (k : ResetKind) : Bool :=
  match m.pwr.resetting with
  | some j => decide (k.rank ≤ j.rank)
  | none => false

/-- A datapath reset begins (R387). -/
def Mach.beginDp (m : Mach) (lost : Bool) (cause : Nat) : Mach :=
  (m.beginDatapath lost).modPwr fun p => {
    p with resetting := some (if lost then .dpLost else .dpKept), lastCause := cause, dpResetCount := p.dpResetCount + 1 }

/-- A warm reset begins: every island, management included. Timestamps continue. Kept W stays; P comes back from the store at
boot (R387, R394). Requests of the thermal and power-cap controllers start again from none. -/
def Mach.beginWarm (m : Mach) (cause : Nat) : Mach :=
  let kind := if m.absorbs .warm then m.pwr.resetting else some .warm
  let m := ((m.beginDatapath true).restartMgmt true).forget [.d]
  let m := { m with
    islands := m.islands.map fun (x : Island) => { x with reqThermal := 0, reqPower := 0 },
    sensors := m.sensors.map fun (x : Sensor) => { Sensor.init with peak := x.peak } }
  m.modPwr fun p => { p with
    resetting := kind, resetDue := none, mgmtResetting := false, lastCause := cause,
    capQuietMs := 0, coolTicks := Vector.replicate 5 0, inputW := 0 }

/-- A management-only reset begins: the datapath keeps running (R342, R387). -/
def Mach.beginMgmt (m : Mach) (cause : Nat) : Mach :=
  (m.restartMgmt false).modPwr fun p => { p with mgmtResetting := true, resetDue := none, lastCause := cause }

/-- The management island leaves reset with the straps sampled (R391). -/
def Mach.sampleStraps (m : Mach) (straps : BitVec 16) : Mach :=
  (m.modPwr fun p => { p with straps := straps }).modIsland 133 fun x => { x with st := .run }

/-! ### Power lost and applied (R394, R396, R397) -/

/-- What stays without power: fuses and factory data, NOR (firmware, log ring, store, media tables, records of objects that
firmware writes itself: log 39), the vault and its mirror. Everything else is as at first power-up. -/
def Mach.unpowered (m : Mach) : Mach :=
  let z := Mach.reset
  { z with
    grade := m.grade, now := m.now, freeCtr := m.freeCtr, out := m.out,
    islands := Vector.ofFn fun i =>
      let x := m.islands[i]
      { Island.init .powerGated with condemned := x.condemned, repairExhausted := x.repairExhausted, grownRows := x.grownRows,
                                     rowMap := x.rowMap, failedSinceClear := x.failedSinceClear },
    log := { z.log with ring := m.log.ring, mirror := m.log.mirror, nextSeq := m.log.nextSeq },
    mgmt := { z.mgmt with restarts := m.mgmt.restarts, copies := m.mgmt.copies },
    pwr := { z.pwr with
      modState := .off, resetting := none, resetNLow := m.pwr.resetNLow, dpResetCount := m.pwr.dpResetCount,
      bootCount := m.pwr.bootCount, tripCount := m.pwr.tripCount, inputFaults := m.pwr.inputFaults, brownOut := m.pwr.brownOut,
      tripped := m.pwr.tripped },
    mem := { z.mem with dramEpochs := m.mem.dramEpochs.map (· + 1) },
    links := m.links.map Link.off,
    net := { z.net with folds := m.net.folds.map fun (f : Fold) => { Fold.init with
      rankMap := f.rankMap, generation := f.generation, committed := f.committed, homes := f.homes, homeDue := f.homeDue } },
    goose := { z.goose with cause := m.goose.cause },
    drover := { z.drover with
      gens := m.drover.gens, shards := m.drover.shards, vault := m.drover.vault, freeKib := m.drover.freeKib,
      dieFail := m.drover.dieFail, dieRebuilt := m.drover.dieRebuilt, rebuildPermille := m.drover.rebuildPermille,
      erases := m.drover.erases, reads := m.drover.reads, programmed := m.drover.programmed, badBlocks := m.drover.badBlocks,
      marks := m.drover.marks },
    fw := { m.fw.endSession with received := 0, status := 0 } }

/-- The module loses its power; a brown-out or an overvoltage trip is remembered for the next boot (R397, R398). -/
def Mach.powerLost (m : Mach) (fault : Bool) : Mach :=
  m.unpowered.modPwr fun p => { p with
    brownOut := fault || p.brownOut, inputFaults := if fault then p.inputFaults + 1 else p.inputFaults }

/-- Power comes up: timestamps restart at 0, boot_count rises, the management island waits for RESET_N and then samples the
straps (R387, R396). -/
def Mach.powerUp (m : Mach) (straps : BitVec 16) : Mach :=
  let m := m.unpowered
  let m := { m with now := 0, islands := m.islands.map fun (x : Island) => { x with st := .reset } }
  let m := m.modPwr fun p => { p with
    modState := .mgmtOnly, resetting := some .cold, bootCount := p.bootCount + 1, lastCause := if p.brownOut then 2 else 1,
    brownOut := false, tripped := false }
  if m.pwr.resetNLow then m else m.sampleStraps straps

/-! ### The datapath is released (R389, R396) -/

/-- Physical rows of a Loom island that the factory's map passes over (R51, R352). -/
def factoryRows (i : IslandId) : List Nat :=
  let k := i.val / 23 * 9 + i.val % 23
  (List.range (Config.factoryRowRepairs k % 4)).map fun n => (Config.factoryRow k n).val

/-- The row-repair map in force: the physical rows, of 99, that the 96 logical rows of a Loom island lie on (R51). -/
def Mach.rowsOf (m : Mach) (i : IslandId) : List Nat :=
  ((List.range 99).filter fun r => !(factoryRows i).contains r && !(m.islands[i]).rowMap.contains r).take 96

/-- Spare rows of a Loom island that are still unused: 3, less the factory's and the grown repairs (R51, R352). -/
def Mach.spareRows (m : Mach) (i : IslandId) : Nat := 3 - ((factoryRows i).length + (m.islands[i]).grownRows.length)

/-- The grown row-repair map is applied; an island that it repairs is no longer condemned (R51, R337). -/
def Mach.repairRows (m : Mach) : Mach :=
  { m with islands := m.islands.map fun (x : Island) =>
      { x with rowMap := x.grownRows, condemned := x.condemned && decide (x.rowMap = x.grownRows) } }

/-- Contexts with context_enable 1 become ENABLED once DRAM is in service and their windows are valid (R146, R389, log 33). -/
def Mach.enableContexts (m : Mach) : Mach :=
  if m.mem.dramState ≠ 2 then m
  else allCtx.foldl (fun m c =>
    if (m.ctxs[c]).st = .disabled ∧ m.num (ctxIdx c 0) 2 = 1 ∧ m.windowsOk c then m.setCtxState c .enabled .none else m) m

/-- The plan objects take effect after a boot that loaded them; a region that is not legal leaves no plan (R272, R394). -/
def Mach.bootPlan (m : Mach) : Mach :=
  if regionOk (coordOf (m.num 0x2500 2)) (coordOf (m.num 0x2500 3)) then m.applyPlan else m

/-- The hub and the compute dies are released: islands run, rows repaired, scratchpad zeroed, pools and routes from their
definitions, links in DETECT or DISABLED, host port in its requested mode, DRAM training or back from self-refresh, contexts
enabled (R107, R259, R389, R396). Settings that take effect at a warm reset do so here (R87, R295). -/
def Mach.releaseDatapath (m : Mach) (k : ResetKind) : Mach :=
  let boot := decide (k = .cold) || decide (k = .warm)
  let m := (m.setIslands ((List.range 133).map island) .run).repairRows.loseSpad
  let m := m.modPwr fun p => { p with modState := .active }
  let m := if boot then { m with mem := { m.mem with spadPool := m.num 0x2981 1 }, drover := { m.drover with slotGib := m.num 0x2B00 1 } }
    else m
  let m := if boot then m.bootPlan else m
  let m := allLinks.foldl (fun m l => m.resetLink l) m.poolsReset
  let m := m.hostStart
  if k = .dpKept then (m.selfRefresh false).enableContexts
  else m.modMem fun s => { s with dramState := 1, chans := s.chans.map fun c => { c with st := 1 } }

/-! ### STANDBY and MGMT_ONLY (R382, R384) -/

/-- Islands that STANDBY switches off: the compute dies, Shuttle, MOVE, Drover and AUDIT. -/
def standbyOff : List IslandId := dieIslands ++ [128, 129, 130, 131]

/-- Counters of the source classes of islands that STANDBY switches off (R358, R394). -/
def Counter.inStandbyOff (k : Counter) : Bool := [1, 2, 3, 4, 0xA, 0xB, 0xC, 0xD].contains (k.source.toNat / 4096)

/-- Objects of Kept V of the islands that STANDBY switches off: the Drover's import slot (R317, R394). -/
def standbyForgets (key : Nat) : Bool := allCtx.any fun c => decide (key = objKey (ckptIdx c) 13)

/-- Log records of the sector that is not full go to the vault mirror (R364, R384). -/
def Log.mirrorAll (g : Log) : Log :=
  { g with mirror :=
      let old := match g.mirror.getLast? with
        | some r => g.ring.filter fun x => seqBefore (2 ^ 31 - 1) r.seq x.seq
        | none => g.ring
      let all := g.mirror ++ old
      all.drop (all.length - 2 ^ 24) }

/-- Into STANDBY (R382, R384): scratchpad lost, DRAM in self-refresh, memory controllers with their clocks stopped. -/
def Mach.enterStandby (m : Mach) : Mach :=
  let m := if m.grade = .n then m else { m with log := m.log.mirrorAll }
  let m := ((m.selfRefresh true).loseSpad.setIslands standbyOff .powerGated).setIslands
    ((List.range 24).map fun c => island (102 + c)) .clockGated
  { m with dict := m.dict.filter fun e => !standbyForgets e.1
           counters := m.counters.map fun k => if k.inStandbyOff then { k with value := 0, overflow := false, sample := 0 } else k,
           islands := m.islands.map fun (x : Island) => if x.st = .powerGated then { x with lastPass := 0 } else x,
           pwr := { m.pwr with modState := .standby } }

/-- Out of STANDBY (R384): row repair, scratchpad zeroed, DRAM out of self-refresh, links in Ls wake (R237). -/
def Mach.leaveStandby (m : Mach) : Mach :=
  let m := ((m.setIslands standbyOff .run).setIslands ((List.range 24).map fun c => island (102 + c)) .run).repairRows.loseSpad
  let m := (m.selfRefresh false).modPwr fun p => { p with modState := .active }
  allLinks.foldl (fun m l => if m.num (0x2600 + l.val) 0x21 = 2 then m else m.exitLs l) m

/-- Into MGMT_ONLY (R384, R405): a datapath reset with DRAM lost, and the datapath rails off. -/
def Mach.enterMgmtOnly (m : Mach) : Mach := 
  ((m.beginDatapath true).datapathIslands .powerGated).modPwr fun p => { p with dpResetCount := p.dpResetCount + 1 }

end Sys2Proof.Machine
end

