-- ==== Sys2Proof/Machine/Islands.lean ====
section
/-! DEFINITION. Clock islands (R14 to R21): gating, power, derating; and the priority class of a context (R25). -/

namespace Sys2Proof.Machine

open Sys2Proof

/-! ### Work in an island (R17, R18) -/

/-- A buddy or restore stream of the Drover or a snapshot's copying is in progress. -/
def Mach.droverStreams (m : Mach) : Bool :=
  (m.drover.ctxs.toList.any fun k => k.stream.isSome || k.restore.isSome) || m.drover.slots.toList.any fun k => decide (k.st = .frozen)

/-- The memory controller islands. -/
def memIslands : List IslandId := (List.range 24).map fun c => island (102 + c)

/-- The islands in which work of started slots, collectives and the Drover is queued or in flight: the engines, and the way to what
they read and write (R9 to R11, R18). -/
def Mach.workPath (m : Mach) : List IslandId :=
  (m.mv.jobs.flatMap fun j => (parseMove j.slot.bytes).startPath ++ j.nextPath) ++
    ((m.arrays.filter ArrayJob.running).flatMap fun j => (parseArray j.slot.bytes).path) ++
    ((m.vecs.filter fun j => !m.vecParked j).flatMap fun j => (parseVec j.slot.bytes).path) ++
    (m.audits.flatMap fun j => (parseAudit j.slot.bytes).path) ++ (m.shut.colls.flatMap Coll.path) ++
    (m.drover.jobs.flatMap fun j => (parseVault j.slot.bytes).path) ++
    (m.drover.heldWrites.flatMap fun w => 130 :: dramPath w.addr w.data.length) ++
    if m.droverStreams then 130 :: 126 :: memIslands else []

/-- A link holds flits or packets. -/
def Link.busy (k : Link) : Bool := !k.quiet || !k.arrived.isEmpty || !k.inBuf.isEmpty

/-- Work is queued or in flight in an island (R18, log 37). -/
def Mach.islandBusy (m : Mach) (i : IslandId) : Bool :=
  let n := i.val
  m.workPath.contains i ||
    if n < 92 then false
    else if n < 101 then (List.range 4).any fun k => (m.links[(Fin.ofNat 36 (4 * (n - 92) + k) : LinkId)]).busy
    else if n = 101 then
      !m.host.waiting.isEmpty || m.ctxs.toList.any fun x => !x.recordQ.isEmpty || x.qps.toList.any fun q => !q.outstanding.isEmpty
    else if n = 126 then !m.net.inject.isEmpty || !m.net.localRx.isEmpty || m.links.toList.any Link.busy
    else if n = 127 then
      (m.pools.toList.any fun p => !p.alloc.isEmpty || !p.waiting.isEmpty) || m.ctxs.toList.any fun x => !x.cmdQ.isEmpty
    else if n = 128 then !m.shut.rx.isEmpty
    else if n = 129 then !m.mv.flights.isEmpty
    else if n = 132 then m.ctxs.toList.any fun x => !x.cmdQ.isEmpty || !x.words.isEmpty
    else decide (n = 133)

/-! ### Gating (R17, R18) -/

/-- ISLAND_GATE_REQUEST (R18): the owner asks for a clock gate; the request waits for the island to drain. -/
def execIslandGateRequest (i : IslandId) (s : State) : Host.Outcome State Fault Refusal :=
  runs s fun m => if (m.islands[i]).st = .run then m.modIsland i fun x => { x with gateReq := true } else m

/-- ISLAND_GATE_GRANT (R17, R18): granted only when no work is queued or in flight in the island. -/
def execIslandGateGrant (i : IslandId) (s : State) : Host.Outcome State Fault Refusal :=
  runs s fun m =>
    if (m.islands[i]).gateReq ∧ (m.islands[i]).st = .run ∧ !m.islandBusy i then
      m.modIsland i fun x => { x with st := .clockGated, gateReq := false }
    else m

/-- ISLAND_GATE_TIMEOUT (R18): the waiting request is withdrawn and island_gate_refused counts it. -/
def execIslandGateTimeout (i : IslandId) (s : State) : Host.Outcome State Fault Refusal :=
  runs s fun m =>
    if (m.islands[i]).gateReq then (m.modIsland i fun x => { x with gateReq := false }).cnt 0x0003 i.val else m

/-- ISLAND_WAKE (R17, R18): work arrived at a boundary FIFO, or the owner wakes the island. -/
def execIslandWake (i : IslandId) (s : State) : Host.Outcome State Fault Refusal := runs s fun m => m.wake [i]

/-! ### Power of one island (R17) -/

/-- The snapshots and buddy images in DRAM are lost: every slot's lines lie on all channels (R84, R300). -/
def Mach.loseSlots (m : Mach) : Mach :=
  { m with drover := { m.drover with slots := Vector.replicate 2 SnapSlot.free, buddies := Vector.replicate 2 ⟨0, 0⟩ } }

/-- One DRAM channel loses its contents, and DRAM is DOWN without it (R17, R83). -/
def MemSys.loseChan (s : MemSys) (ch : DramChan) : MemSys :=
  let gone := fun (u : Nat) => decide (dramChan (u * 64) = ch)
  { s with badUnits := s.badUnits.filter fun u => !gone u, weakUnits := s.weakUnits.filter fun u => !gone u.1,
           zeroed := s.zeroed.map fun z => (z.1, z.2.1, ch.val :: z.2.2), dramEpochs := Vec.upd s.dramEpochs ch (· + 1),
           dramState := 0, chans := Vec.upd s.chans ch fun k => { k with st := 0 } }

/-- A memory controller stops: its channel goes without refresh. -/
def Mach.loseChan (m : Mach) (ch : DramChan) : Mach :=
  { m with dram := m.dram.filter fun e => !decide (dramChan e.1 = ch), mem := m.mem.loseChan ch }.loseSlots

/-- The Drover island loses the pieces it was taking in; their buffers are freed. -/
def Mach.losePieces (m : Mach) : Mach :=
  let m := m.drover.pieces.foldl Mach.freePiece m
  { m with drover := { m.drover with pieces := [] } }

/-- The state that an island loses with its power (R17). Scratchpad islands are held at retention voltage and keep their contents;
bridges, the crossbar, the AUDIT engine, vector and die control islands hold nothing between two works (log 30). -/
def Mach.loseIsland (m : Mach) (i : IslandId) : Mach :=
  let n := i.val
  if n < 92 ∧ n % 23 < 9 then { m with active := none, inactive := none }
  else if 92 ≤ n ∧ n < 101 then
    (List.range 4).foldl (fun m k => m.dropLink (Fin.ofNat 36 (4 * (n - 92) + k)) .disabled) m
  else if n = 101 then
    { (m.modHost fun _ => ⟨4, 0, 0, []⟩) with ctxs := m.ctxs.map fun (x : Ctx) => { x with qps := Vector.replicate 18 Qp.init } }
  else if 102 ≤ n ∧ n < 126 then m.loseChan (Fin.ofNat 24 (n - 102))
  else if n = 127 then
    { m.poolsReset with
      ctxs := m.ctxs.map fun (x : Ctx) => { x with heddle := [] },
      shut := { m.shut with groups := [], early := [] },
      net := { m.net with routes := [], turns := [], graph := [], graphNext := [], rebuilding := true, built := none } }
  else if n = 128 then { m with shut := { m.shut with asm := [], refused := [], strays := [] } }
  else if n = 129 then { m with mv := { m.mv with cwnd := [] } }
  else if n = 130 then m.losePieces
  else if n = 132 then { m with ctxs := Vector.ofFn fun c => (m.ctxs[c]).cleared (m.num (ctxIdx c 0) 4) }
  else m

/-- The module state keeps an island powered (R16, R382). -/
def Mach.powered (m : Mach) (i : IslandId) : Bool :=
  match m.pwr.modState with
  | .active | .idle => true
  | .quiet => !(loomIslands ++ vectorIslands).contains i
  | .standby => !standbyOff.contains i
  | .mgmtOnly | .off => false

/-- ISLAND_POWER_OFF (R17): a CLOCK_GATED island is switched off; its state is lost. -/
def execIslandPowerOff (i : IslandId) (s : State) : Host.Outcome State Fault Refusal :=
  runs s fun m =>
    if (m.islands[i]).st = .clockGated then (m.loseIsland i).modIsland i fun x => { x with st := .powerGated } else m

/-- ISLAND_POWER_ON (R16, R17): the path to RUN goes through RESET. An island that the module state keeps off stays off (R382). -/
def execIslandPowerOn (i : IslandId) (s : State) : Host.Outcome State Fault Refusal :=
  runs s fun m =>
    if (m.islands[i]).st = .powerGated ∧ m.powered i then m.modIsland i fun x => { x with st := .reset, poweringOn := true } else m

/-- ISLAND_POWER_ON_DONE (R17): RUN. The links of a link island are reset with it, the host port starts afresh. -/
def execIslandPowerOnDone (i : IslandId) (s : State) : Host.Outcome State Fault Refusal :=
  runs s fun m =>
    if (m.islands[i]).st = .reset ∧ (m.islands[i]).poweringOn ∧ m.powered i then
      let m := m.modIsland i fun x => { x with st := .run, poweringOn := false }
      let n := i.val
      if 92 ≤ n ∧ n < 101 then (List.range 4).foldl (fun m k => m.resetLink (Fin.ofNat 36 (4 * (n - 92) + k))) m
      else if n = 101 then m.hostStart
      else m
    else m

/-! ### Derating (R21) -/

/-- The largest step that any requester holds. -/
def Island.wanted (x : Island) : BitVec 2 :=
  BitVec.ofNat 2 (max (max x.reqOp.toNat x.reqGoose.toNat) (max x.reqThermal.toNat x.reqPower.toNat))

/-- A write of island_derate: only the operator's request. -/
def wrDerate (i : IslandId) : Writer := fun m _ v =>
  .guard (decide (3 < v.toNum)) abRange (.ok (m.modIsland i fun x => { x with reqOp := BitVec.ofNat 2 v.toNum }))

/-- ISLAND_DERATE (R21). -/
def execIslandDerate (ch : Channel) (i : IslandId) (data : Bytes) (s : State) : Host.Outcome State Fault Refusal :=
  runs s fun m => m.dictWrite ch 0x2403 (i.val + 1) data (wrDerate i)

/-- Goose tests the Loom and vector islands (R336). -/
def gooseTests (i : IslandId) : Bool := decide (i.val < 92) && (decide (i.val % 23 < 9) || decide (i.val % 23 = 17))

/-- An instruction or transfer of the island is unfinished (R21). A Loom island stands at a segment boundary between any two commands
(R73). -/
def Mach.midWork (m : Mach) (i : IslandId) : Bool := !loomIslands.contains i && m.workPath.contains i

/-- DERATE_APPLY (R21, R336): the island's clock changes to the wanted step; Goose tiles follow before it accepts more work. -/
def execDerateApply (i : IslandId) (s : State) : Host.Outcome State Fault Refusal :=
  runs s fun m =>
    let x := m.islands[i]
    if x.effective = x.wanted ∨ m.midWork i ∨ !m.reachable [i] then m
    else m.modIsland i fun x => { x with effective := x.wanted, tileDue := x.tileDue || gooseTests i }

/-! ### Priority class (R25) -/

/-- A write of priority_class: 0 PRIMARY, 1 SECONDARY, 2 FILL. -/
def wrPriority (c : CtxId) : Writer := fun m _ v =>
  .guard (decide (2 < v.toNum)) abRange (.ok (m.setObj (ctxIdx c 1) 1 v))

/-- PRIORITY_CLASS (R25). -/
def execPriorityClass (ch : Channel) (c : CtxId) (data : Bytes) (s : State) : Host.Outcome State Fault Refusal :=
  runs s fun m => m.dictWrite ch (ctxIdx c 1) 1 data (wrPriority c)

end Sys2Proof.Machine
end

