-- ==== Sys2Proof/Machine/Power.lean ====
section
/-! DEFINITION. Module states (R382 to R386), resets (R387 to R390), power-up and power-down (R396 to R398), and the controllers of
power and temperature (R401 to R405). -/

namespace Sys2Proof.Machine

open Sys2Proof

/-! ### Conditions of a transition (R384) -/

/-- A context does nothing: stopped, or ENABLED with an empty command queue and every engine IDLE. -/
def Mach.ctxQuiescent (m : Mach) (c : CtxId) : Bool :=
  let x := m.ctxs[c]
  [CtxState.disabled, .halted, .faulted].contains x.st || (decide (x.st = .enabled) && m.ctxIdle c)

/-- *Quiescent* (R384). -/
def Mach.quiescent (m : Mach) : Bool :=
  (allCtx.all m.ctxQuiescent) && m.shut.colls.isEmpty && m.mv.jobs.isEmpty && m.drover.jobs.isEmpty &&
    (m.drover.slots.toList.all fun k => decide (k.st ≠ .frozen)) &&
    m.drover.ctxs.toList.all fun k => k.stream.isNone && decide (k.roll ≠ .running)

/-- Every context is stopped: DISABLED, HALTED or FAULTED. -/
def Mach.allStopped (m : Mach) : Bool :=
  m.ctxs.toList.all fun x => [CtxState.disabled, .halted, .faulted].contains x.st

/-- STRAP[10] holds the datapath in reset (R386). -/
def Mach.recovery (m : Mach) : Bool := m.pwr.straps.getLsbD 10

/-- Limits of the sensors of R403: throttle and critical, in m°C; none for a sensor without a critical point. -/
def criticalOf (n : Nat) : Option (Int × Int) :=
  if n < 108 then some (95000, 105000)
  else if 156 ≤ n then some (120000, 130000)
  else if 122 ≤ n ∧ n < 146 then some (85000, 95000)
  else if 146 ≤ n ∧ n < 154 then some (75000, 85000)
  else none

/-- The reading below which a sensor of R403 counts as cooled: 90 °C on a die, its throttle point elsewhere (R405). -/
def cooledBelow (n : Nat) : Option Int :=
  if n < 108 then some 90000 else if n = 154 then some 40000 else (criticalOf n).map Prod.fst

/-- Every sensor of R403 reads OK and has cooled (R405). An ABSENT sensor has no reading to wait for. -/
def Mach.cooled (m : Mach) : Bool :=
  (fins 159).all fun n => match cooledBelow n.val with
    | none => true
    | some t =>
      let x := m.sensors[n]
      decide (x.status = .absent) || (decide (x.status = .ok) && decide (x.value < t))

/-- The transition to a state may run from the present one (R384). -/
def Mach.mayGo (m : Mach) (to_ : ModState) : Bool :=
  let here := m.pwr.modState
  let on := decide (here = .active) || decide (here = .idle)
  match to_ with
  | .quiet => on && m.quiescent
  | .standby => (on || decide (here = .quiet)) && m.quiescent && m.allStopped
  | .mgmtOnly => (on || decide (here = .quiet) || decide (here = .standby)) && m.ctxs.toList.all fun x => decide (x.st = .disabled)
  | .active => decide (here = .quiet) || decide (here = .standby) ||
      (decide (here = .mgmtOnly) && !m.recovery && (!m.pwr.tripped || m.cooled))
  | _ => false

/-- The state that a value of state_request names (R390). -/
def requested : Nat → Option ModState
  | 0 => some .active
  | 2 => some .quiet
  | 3 => some .standby
  | 4 => some .mgmtOnly
  | _ => none

/-- A write of state_request: refused while a transition or a reset runs, or where its condition is not met (R384 to R386). -/
def wrStateRequest : Writer := fun m _ v =>
  match requested v.toNum with
  | none => .err abRange
  | some to_ =>
    .guard (m.pwr.transition.isSome || m.pwr.resetting.isSome || !m.mayGo to_) abState
      (let m := m.modPwr fun p => { p with transition := some to_ }
       .ok (if to_ = .standby then allLinks.foldl (fun m l => m.askLs l) m else m))

/-- STATE_REQUEST_ACTIVE (R384 to R386, R405). -/
def execStateRequestActive (ch : Channel) (s : State) : Host.Outcome State Fault Refusal :=
  runs s fun m => m.dictWrite ch 0x2010 4 [0] wrStateRequest

/-- STATE_REQUEST_QUIET (R384). -/
def execStateRequestQuiet (ch : Channel) (s : State) : Host.Outcome State Fault Refusal :=
  runs s fun m => m.dictWrite ch 0x2010 4 [2] wrStateRequest

/-- STATE_REQUEST_STANDBY (R384): every link in L0 or L1 is asked into Ls. -/
def execStateRequestStandby (ch : Channel) (s : State) : Host.Outcome State Fault Refusal :=
  runs s fun m => m.dictWrite ch 0x2010 4 [3] wrStateRequest

/-- STATE_REQUEST_MGMT_ONLY (R384). -/
def execStateRequestMgmtOnly (ch : Channel) (s : State) : Host.Outcome State Fault Refusal :=
  runs s fun m => m.dictWrite ch 0x2010 4 [4] wrStateRequest

/-- STATE_TRANSITION_COMPLETE (R384, R385): the transition that runs ends, its condition still holding and, on the way to STANDBY,
no link in L0 or L1. -/
def execStateTransitionComplete (s : State) : Host.Outcome State Fault Refusal :=
  runs s fun m =>
    let done := fun (m : Mach) => m.modPwr fun p => { p with transition := none }
    match m.pwr.transition with
    | none => m
    | some to_ =>
      if !m.mayGo to_ then m
      else match to_ with
        | .quiet => done m.enterQuiet
        | .standby => if m.links.toList.any Link.flows then m else done m.enterStandby
        | .mgmtOnly => done m.enterMgmtOnly
        | .active =>
          if m.pwr.modState = .quiet then done m.leaveQuiet
          else if m.pwr.modState = .standby then done m.leaveStandby
          else done ((m.modPwr fun p => { p with tripped := false }).releaseDatapath .dpLost)
        | _ => m

/-! ### IDLE and QUIET (R382 to R384) -/

/-- An ARRAY or VECTOR slot runs or is ready, or a Goose tile is due. -/
def Mach.diesWanted (m : Mach) : Bool :=
  !m.loomFree || m.vecs.any (fun j => !m.vecParked j) || (allCtx.any fun c => (m.arrayClass c).isSome || (m.vecReady c).isSome) ||
    m.tilesOwed (loomIslands ++ vectorIslands)

/-- IDLE_ENTRY (R383): no ARRAY or VECTOR slot has run or been ready for idle_entry_us, and no Goose tile is due. -/
def execIdleEntry (s : State) : Host.Outcome State Fault Refusal :=
  runs s fun m =>
    if m.pwr.modState ≠ .active ∨ m.diesWanted then m
    else
      let gate := (loomIslands ++ vectorIslands).filter fun i => decide ((m.islands[i]).st = .run)
      (m.setIslands gate .clockGated).modPwr fun p => { p with modState := .idle }

/-- IDLE_WAKE (R382, R383). -/
def execIdleWake (s : State) : Host.Outcome State Fault Refusal :=
  runs s fun m =>
    if m.pwr.modState ≠ .idle ∨ !m.diesWanted then m
    else (m.wake (loomIslands ++ vectorIslands)).modPwr fun p => { p with modState := .active }

/-- QUIET_WAKE (R384): traffic for a local context has come; it waits in its receive buffer. -/
def execQuietWake (s : State) : Host.Outcome State Fault Refusal := runs s fun m => m.leaveQuiet

/-! ### Power (R387, R396 to R398) -/

/-- COLD_RESET (R387, R396): PWR_EN rises with the input in range. -/
def execColdReset (straps : BitVec 16) (s : State) : Host.Outcome State Fault Refusal :=
  runs s fun m => if m.pwr.modState = .off then m.powerUp straps else m

/-- The last reading of the input voltage lies below the brown-out threshold of R398 (log 40). -/
def Mach.brownedOut (m : Mach) : Bool :=
  let x := m.sensors[(108 : SensorId)]
  decide (x.status = .ok) && decide (x.value < 30000)

/-- POWER_DOWN (R397, R398): PWR_EN falls, or the input browns out. -/
def execPowerDown (s : State) : Host.Outcome State Fault Refusal :=
  runs s fun m => if m.pwr.modState = .off then m else m.powerLost m.brownedOut

/-- OVERVOLTAGE_TRIP (R398): the hot-swap controller opens. -/
def execOvervoltageTrip (s : State) : Host.Outcome State Fault Refusal :=
  runs s fun m => if m.pwr.modState = .off then m else m.powerLost true

/-! ### Resets (R387 to R389) -/

/-- RESET_N_ASSERT (R387): every island is in RESET. -/
def execResetNAssert (s : State) : Host.Outcome State Fault Refusal :=
  runs s fun m =>
    if m.pwr.resetNLow then m
    else
      let m := m.modPwr fun p => { p with resetNLow := true }
      if m.pwr.modState = .off then m
      else
        let cause := if m.pwr.resetting = some .cold then m.pwr.lastCause else 3
        (m.beginWarm cause).modIsland 133 fun x => { x with st := .reset }

/-- RESET_N_RELEASE (R387, R391, R396): the straps are sampled, and the boot ROM runs. A power-up that waits for RESET_N goes on
here. -/
def execResetNRelease (straps : BitVec 16) (s : State) : Host.Outcome State Fault Refusal :=
  runs s fun m =>
    if !m.pwr.resetNLow then m
    else
      let m := m.modPwr fun p => { p with resetNLow := false }
      if m.pwr.modState = .off then m else m.sampleStraps straps

/-- "rst" and a type: what reset_request takes (R390). -/
def resetType (n : Nat) : Option Nat :=
  if n / 256 = 0x727374 ∧ 1 ≤ n % 256 ∧ n % 256 ≤ 4 then some (n % 256) else none

/-- A write of reset_request (R387, R388, R390). Types 1 and 4 begin 10 ms after the answer. -/
def wrResetRequest : Writer := fun m _ v =>
  match resetType v.toNum with
  | none => .err abStore
  | some 1 => .ok (if m.absorbs .warm then m else m.modPwr fun p => { p with resetDue := some .warm })
  | some 4 => .ok (if m.pwr.resetDue = some .warm ∨ m.absorbs .warm then m else m.modPwr fun p => { p with resetDue := some .mgmtOnly })
  | some 2 => .guard m.recovery abState (.ok (if m.absorbs .dpKept then m else m.beginDp false 5))
  | some _ => .guard m.recovery abState (.ok (if m.absorbs .dpLost then m else m.beginDp true 5))

/-- WARM_RESET_REQUEST (R387, R390): type 1. -/
def execWarmResetRequest (ch : Channel) (s : State) : Host.Outcome State Fault Refusal :=
  runs s fun m => m.dictWrite ch 0x2010 1 (natLe 4 0x72737401) wrResetRequest

/-- DATAPATH_RESET_DRAM_KEPT (R387, R389, R390): type 2. -/
def execDatapathResetDramKept (ch : Channel) (s : State) : Host.Outcome State Fault Refusal :=
  runs s fun m => m.dictWrite ch 0x2010 1 (natLe 4 0x72737402) wrResetRequest

/-- DATAPATH_RESET_DRAM_LOST (R387, R389, R390): type 3. -/
def execDatapathResetDramLost (ch : Channel) (s : State) : Host.Outcome State Fault Refusal :=
  runs s fun m => m.dictWrite ch 0x2010 1 (natLe 4 0x72737403) wrResetRequest

/-- MANAGEMENT_ONLY_RESET (R387, R390): type 4. -/
def execManagementOnlyReset (ch : Channel) (s : State) : Host.Outcome State Fault Refusal :=
  runs s fun m => m.dictWrite ch 0x2010 1 (natLe 4 0x72737404) wrResetRequest

/-- RESET_BEGIN (R387, R388, R391): the warm or management-only reset that was answered 10 ms ago begins. -/
def execResetBegin (straps : BitVec 16) (s : State) : Host.Outcome State Fault Refusal :=
  runs s fun m =>
    match m.pwr.resetDue with
    | some .warm => (m.beginWarm 4).sampleStraps straps
    | some .mgmtOnly => m.beginMgmt 7
    | _ => m

/-- RESET_COMPLETE (R386, R388, R389, R396): the firmware runs, and the reset's scope is back in service. In a recovery boot, and
after a critical trip until every sensor has cooled, the datapath stays in reset. -/
def execResetComplete (s : State) : Host.Outcome State Fault Refusal :=
  runs s fun m =>
    match m.pwr.resetting with
    | none => m
    | some k =>
      if !m.mgmtUp ∨ m.pwr.resetNLow then m
      else
        let m := m.modPwr fun p => { p with resetting := none }
        if m.recovery ∨ (m.pwr.tripped ∧ !m.cooled) then m
        else (m.modPwr fun p => { p with tripped := false }).releaseDatapath k

/-! ### Power cap (R401) -/

/-- Islands under the power cap and under a die's throttling: Loom and vector islands; on the hub Shuttle, MOVE, AUDIT (R401,
R404). -/
def throttled (d : Nat) : List IslandId :=
  if d < 4 then ((List.range 9).map fun j => island (23 * d + j)) ++ [island (23 * d + 17)] else [128, 129, 131]

/-- One step up, to 3 at most. -/
def stepUp (x : BitVec 2) : BitVec 2 := if x = 3 then 3 else x + 1

/-- One step down, to 0 at least. -/
def stepDown (x : BitVec 2) : BitVec 2 := if x = 0 then 0 else x - 1

/-- Change one request of several islands. -/
def Mach.derate (m : Mach) (is : List IslandId) (f : Island → Island) : Mach := is.foldl (fun m i => m.modIsland i f) m

/-- A regulator power stage is at its throttle point: as if the cap were exceeded (R403). -/
def Mach.stageHot (m : Mach) : Bool := (List.range 4).any fun k => (m.sensors[(Fin.ofNat 160 (156 + k) : SensorId)]).throttled

/-- POWER_CAP_TICK (R401, R403, R411): 1 ms of input power. -/
def execPowerCapTick (averageW : Nat) (s : State) : Host.Outcome State Fault Refusal :=
  runs s fun m =>
    if !m.mgmtUp then m
    else
      let cap := m.num 0x2200 3
      let is := loomIslands ++ vectorIslands
      let m := m.modPwr fun p => { p with inputW := averageW, energyMj := p.energyMj + averageW }
      if cap < averageW ∨ m.stageHot then
        (m.derate is fun x => { x with reqPower := stepUp x.reqPower }).modPwr fun p => { p with capQuietMs := 0 }
      else if averageW * 100 < cap * 95 then
        if 99 ≤ m.pwr.capQuietMs then
          (m.derate is fun x => { x with reqPower := stepDown x.reqPower }).modPwr fun p => { p with capQuietMs := 0 }
        else m.modPwr fun p => { p with capQuietMs := p.capQuietMs + 1 }
      else m.modPwr fun p => { p with capQuietMs := 0 }

/-! ### Temperature (R354, R404, R405) -/

/-- Sensors of a die: 0 to 3 the compute dies, 4 the hub (R353, R354). -/
def dieSensors (d : Nat) : List SensorId :=
  if d < 4 then (List.range 24).map fun j => Fin.ofNat 160 (24 * d + j) else (List.range 12).map fun j => Fin.ofNat 160 (96 + j)

/-- The die temperature: the highest reading of its sensors with status OK (R354). -/
def Mach.dieTemp (m : Mach) (d : Nat) : Option Int :=
  (dieSensors d).foldl (fun a n =>
    let x := m.sensors[n]
    if x.status = .ok then (match a with
      | none => some x.value
      | some t => some (max t x.value)) else a) none

/-- A die all of whose sensors are STALE or FAILED, which counts as being at its throttle point (R354). -/
def Mach.dieBlind (m : Mach) (d : Nat) : Bool :=
  (dieSensors d).all fun n => [SensorStatus.stale, .failed].contains (m.sensors[n]).status

/-- A die is at or above its throttle point. -/
def Mach.dieHot (m : Mach) (d : Nat) : Bool :=
  m.dieBlind d || match m.dieTemp d with
    | some t => decide (95000 ≤ t)
    | none => false

/-- A die has stayed below the release point of R404. -/
def Mach.dieCool (m : Mach) (d : Nat) : Bool :=
  !m.dieBlind d && match m.dieTemp d with
    | some t => decide (t < 92000)
    | none => true

/-- THERMAL_THROTTLE_TICK (R404): 10 ms of one die's temperature. A new step counts at the die's control block, the hub's at the
management island. -/
def execThermalThrottleTick (die : Fin 5) (s : State) : Host.Outcome State Fault Refusal :=
  runs s fun m =>
    let d := die.val
    let is := throttled d
    let ticks := fun (m : Mach) (n : Nat) => m.modPwr fun p => { p with coolTicks := Vec.upd p.coolTicks die fun _ => n }
    if !m.mgmtUp then m
    else if m.dieHot d then
      let new := is.any fun i => decide ((m.islands[i]).reqThermal ≠ 3)
      let m := ticks (m.derate is fun x => { x with reqThermal := stepUp x.reqThermal }) 0
      if new then m.cnt 0x4003 (if d < 4 then 23 * d + 18 else 133) else m
    else if m.dieCool d then
      if 9 ≤ m.pwr.coolTicks[die] then ticks (m.derate is fun x => { x with reqThermal := stepDown x.reqThermal }) 0
      else ticks m (m.pwr.coolTicks[die] + 1)
    else ticks m 0

/-- THERMAL_TRIP (R405): a sensor at its critical point; for one that is on no die, firmware acts. The datapath shuts down whatever the
contexts do. -/
def execThermalTrip (n : SensorId) (s : State) : Host.Outcome State Fault Refusal :=
  runs s fun m =>
    if (criticalOf n.val).isNone ∨ m.pwr.modState = .off ∨ (108 ≤ n.val ∧ !m.mgmtUp) then m
    else
      let m := m.enterMgmtOnly.modPwr fun p => { p with tripped := true, tripCount := p.tripCount + 1 }
      m.emcy 0x4210 (0x80000000 + n.val) 5 none 133

end Sys2Proof.Machine
end

