-- ==== Sys2Proof/Machine/Counters.lean ====
section
/-! DEFINITION. The counter network (R358 to R362): its commands, and the configuration of a counter. -/

namespace Sys2Proof.Machine

open Sys2Proof

/-! ### Network commands (R361) -/

/-- FREEZE samples every counter in one cycle; in FROZEN the sample stays as it is. -/
def Mach.freezeCounters (m : Mach) : Mach :=
  if m.netState = .frozen then m
  else { m with netState := .frozen, counters := m.counters.map fun (k : Counter) => { k with sample := k.value } }

/-- CLEAR zeroes every counter, its overflow bit and, in FROZEN, its sample. -/
def Mach.clearCounters (m : Mach) : Mach :=
  { m with counters := m.counters.map fun (k : Counter) => {
      k with value := 0, overflow := false, sample := if m.netState = .frozen then 0 else k.sample } }

/-- A write of counter_command. -/
def wrCounterCommand : Writer := fun m _ v =>
  match v.toNum with
  | 0 => .ok { m with netState := .run }
  | 1 => .ok { m with netState := .stopped }
  | 2 => .ok m.freezeCounters
  | 3 => .ok m.clearCounters
  | _ => .err abRange

/-- COUNTER_RUN (R361). -/
def execCounterRun (ch : Channel) (s : State) : Host.Outcome State Fault Refusal :=
  runs s fun m => m.dictWrite ch 0x2D00 1 [0] wrCounterCommand

/-- COUNTER_STOP (R361). -/
def execCounterStop (ch : Channel) (s : State) : Host.Outcome State Fault Refusal :=
  runs s fun m => m.dictWrite ch 0x2D00 1 [1] wrCounterCommand

/-- COUNTER_FREEZE (R361). -/
def execCounterFreeze (ch : Channel) (s : State) : Host.Outcome State Fault Refusal :=
  runs s fun m => m.dictWrite ch 0x2D00 1 [2] wrCounterCommand

/-- COUNTER_CLEAR (R361). -/
def execCounterClear (ch : Channel) (s : State) : Host.Outcome State Fault Refusal :=
  runs s fun m => m.dictWrite ch 0x2D00 1 [3] wrCounterCommand

/-! ### One counter (R359, R360, R362) -/

/-- A filter names an island above 133, a link above 35, or sets reserved bits (R359). -/
def filterBad (f : Nat) : Bool := decide (133 < bits f 30 23) || decide (35 < bits f 18 13) || decide (bits f 3 0 ≠ 0)

/-- A filter that a counter owned by a context must have: ctx_en 1 and the context (R362). -/
def ownFilter (owner f : Nat) : Bool := decide (4 ≤ owner) || (bit f 22 && decide (bits f 21 20 = owner))

/-- A filter with its ctx_en and context fields forced to 1 and c (R362). -/
def forceCtx (f c : Nat) : Nat := f - bits f 22 20 * 2 ^ 20 + 2 ^ 22 + c * 2 ^ 20

/-- A counter starts afresh (R360). -/
def Counter.restart (k : Counter) : Counter := { k with value := 0, overflow := false }

/-- Change one counter. -/
def Mach.modCounter (m : Mach) (k : CounterId) (f : Counter → Counter) : Mach := { m with counters := Vec.upd m.counters k f }

/-- A write of a counter's source, filter or owner. -/
def wrCounter (k : CounterId) (field : CounterField) : Writer := fun m _ v =>
  let n := v.toNum
  let owner := (m.counters[k]).owner.toNat
  match field with
  | .source => .ok (m.modCounter k fun x => { x.restart with source := BitVec.ofNat 16 n })
  | .filter => .guard (filterBad n || !ownFilter owner n) abRange
      (.ok (m.modCounter k fun x => { x.restart with filter := BitVec.ofNat 32 n }))
  | .owner => .guard (decide (4 ≤ n) && decide (n ≠ 0xFF)) abRange
      (.ok (m.modCounter k fun x => { x.restart with
        owner := BitVec.ofNat 8 n, filter := if n < 4 then BitVec.ofNat 32 (forceCtx x.filter.toNat n) else x.filter }))

/-- Base index of a counter object (R362). -/
def counterBase : CounterField → Nat
  | .source => 0x2D20 | .filter => 0x2D30 | .owner => 0x2D40

/-- COUNTER_CONFIGURE (R359, R360, R362). -/
def execCounterConfigure (ch : Channel) (k : CounterId) (field : CounterField) (data : Bytes) (s : State) :
    Host.Outcome State Fault Refusal :=
  runs s fun m => m.dictWrite ch (counterBase field + k.val / 128) (k.val % 128 + 1) data (wrCounter k field)

end Sys2Proof.Machine
end

