-- ==== Sys2Proof/Machine/Health.lean ====
section
/-! DEFINITION. Module-scope errors and fences (R322, R323), Goose and module health (R335 to R339), the Bellwether table (R219). -/

namespace Sys2Proof.Machine

open Sys2Proof

/-! ### Fencing (R323) -/

/-- The module isolates its Selvedge bundles of a fold (R323). -/
def Mach.fenceHere (m : Mach) (k : FoldSlot) : Mach :=
  let fold := m.num (0x2501 + k.val) 1
  let m := (m.fenceBundles fold).foldl (fun m b => m.isolate b true) m
  let m := (m.modFold k fun f => { f with fenced := true }).cnt 0xF001 133
  m.emcy 0xFF04 fold 4 none 133 0xF001

/-- The module fences a fold: it floods a FENCE message, before the isolation takes hold (R323). The message's layout is not given
(log 7). -/
def Mach.fence (m : Mach) (k : FoldSlot) : Mach :=
  (m.flood 0x2501 [m.num (0x2501 + k.val) 1, m.net.own.toNat, m.net.floods]).fenceHere k

/-- A write of fold_fence. A slot without a fold has nothing to fence. -/
def wrFoldFence (k : FoldSlot) : Writer := fun m _ _ => .ok (if m.num (0x2501 + k.val) 1 = 0 then m else m.fence k)

/-- FOLD_FENCE (R323, R340). -/
def execFoldFence (ch : Channel) (f : FoldSlot) (data : Bytes) (s : State) : Host.Outcome State Fault Refusal :=
  runs s fun m => m.dictWrite ch (0x2501 + f.val) 0x10 data (wrFoldFence f)

/-- FENCE_MESSAGE (R323): a FENCE message that has not come before goes on through the plan region; a member of the fold that has not
fenced it does so. -/
def execFenceMessage (f : FenceMsg) (s : State) : Host.Outcome State Fault Refusal :=
  runs s fun m =>
    let key := (f.origin, f.number)
    if !m.mgmtUp ∨ f.origin = m.net.own ∨ m.net.fencesSeen.contains key then m
    else
      let m := (m.flood 0x2501 [f.fold.toNat, f.origin.toNat, f.number]).modNet fun n => { n with fencesSeen := key :: n.fencesSeen }
      match allCtx.find? fun k => decide (m.num (0x2501 + k.val) 1 = f.fold.toNat) && decide (f.fold ≠ 0) && !(m.net.folds[k]).fenced with
      | some k => m.fenceHere k
      | none => m

/-- Fault a context for an uncorrectable error in state that no slot was reading (R321, R322). -/
def Mach.faultState (m : Mach) (i : IslandId) (c : CtxId) : Mach :=
  m.faultCtx c ⟨BitVec.ofNat 8 Status.uncorrectable.code, BitVec.ofNat 32 i.val, 7, (m.ctxs[c]).lastCommitted, 0, (m.ctxs[c]).step, false,
    noRange, noRange, BitVec.ofNat 8 i.val, m.now⟩

/-- A module-scope error (R322): every ENABLED context faults, the folds they are bound to are fenced where fence_policy says so, and no
context is enabled before the next datapath reset. -/
def Mach.moduleScope (m : Mach) (i : IslandId) : Mach :=
  let hit := allCtx.filter fun c => decide ((m.ctxs[c]).st = .enabled)
  let m := hit.foldl (fun m c => m.faultState i c) (m.sramUe i 5 none)
  let m := (m.cnt 0xF000 133).emcy 0xFF03 i.val 5 none i.val 0xF000
  let folds := allCtx.filter fun k => decide (m.num (0x2501 + k.val) 0x11 = 1) && decide (m.num (0x2501 + k.val) 1 ≠ 0) &&
    hit.any fun c => decide (m.foldOf c = some k)
  let m := folds.foldl (fun m k => m.fence k) m
  m.modPwr fun p => { p with moduleScopeFault := true }

/-- MODULE_SCOPE_ERROR (R320 to R322): an error in state of the hub or of the management subsystem: corrected, contained in the context
that owns the state, or of module scope. The management subsystem's own state reaches no context (R322). -/
def execModuleScopeError (e : StateUpset) (s : State) : Host.Outcome State Fault Refusal :=
  runs s fun m =>
    let isl := e.isl
    if !m.mgmtUp then m
    else match e.e with
      | .corrected => m.sramCe isl
      | .owned c => if isl = 133 then m.sramUe 133 5 none else (m.sramUe isl 3 (some c)).faultState isl c
      | .shared => if isl = 133 then m.sramUe 133 5 none else m.moduleScope isl

/-! ### Goose (R335 to R337) -/

/-- The islands that Goose tests, Loom islands first. -/
def gooseIslands : List IslandId := loomIslands ++ vectorIslands

/-- Tiles are due on some islands. -/
def Mach.tilesDue (m : Mach) (is : List IslandId) : Mach := is.foldl (fun m i => m.modIsland i fun x => { x with tileDue := true }) m

/-- The 5 °C band of a temperature in m°C. -/
def bandOf (t : Int) : Int := t / 5000

/-- GOOSE_BAND_TRIGGER (R336, R339): the die temperature stands in another band than before. Re-entering the band left last counts
only after the reading was 1 °C or more beyond its boundary. The first reading gives the band to start from. -/
def execGooseBandTrigger (die : DieId) (s : State) : Host.Outcome State Fault Refusal :=
  runs s fun m =>
    match m.dieTemp die.val with
    | none => m
    | some t =>
      let b := bandOf t
      let put := fun (m : Mach) (left : Option Int) =>
        { m with goose := { m.goose with bands := Vec.upd m.goose.bands die fun _ => some (b, left) } }
      match m.goose.bands[die] with
      | none => put m none
      | some (cur, left) =>
        if b = cur then m
        else
          let m := put m (some cur)
          if left = some b then m
          else
            let m := m.cnt 0x4004 (23 * die.val + 18)
            if m.num 0x3000 1 = 0 then m
            else m.tilesDue (((List.range 9).map fun j => island (23 * die.val + j)) ++ [island (23 * die.val + 17)])

/-- GOOSE_LOAD_TRIGGER (R336, R339): one more millisecond of busy time; a tile is due on the next island of the rotation
(log 38). -/
def execGooseLoadTrigger (s : State) : Host.Outcome State Fault Refusal :=
  runs s fun m =>
    if m.num 0x3000 1 = 0 then m else m.tilesDue ((gooseIslands[m.goose.tilesRun % 40]?).toList)

/-- Set a bit of suspect_cause: module_health is SUSPECT (R338, R339). -/
def Mach.suspect (m : Mach) (cause : BitVec 8) : Mach := { m with goose := { m.goose with cause := m.goose.cause ||| cause } }

/-- goose_action 1 halts every ENABLED context (R337 step 6). -/
def Mach.gooseHalt (m : Mach) : Mach := if m.num 0x3000 4 = 1 then allCtx.foldl (fun m c => m.haltCtx c) m else m

/-- A row fault of a Loom island: the physical row, of those in use, that no repair covers yet (R51). -/
def Mach.newRow (m : Mach) (i : IslandId) (fault : Option (Fin 99)) : Option Nat :=
  if loomIslands.contains i then
    (fault.map Fin.val).filter fun r => (m.rowsOf i).contains r && !(m.islands[i]).grownRows.contains r
  else none

/-- An island that fails at step 3 is condemned; a row fault that a spare row can repair joins the grown map, and is repaired at the
next datapath reset (R51, R337 step 5). -/
def Mach.condemn (m : Mach) (i : IslandId) (row : Option Nat) : Mach :=
  let due := if m.spareRows i = 0 then [] else row.toList
  m.modIsland i fun x => { x with condemned := true, grownRows := x.grownRows ++ due }

/-- A row fault in a Loom island without a spare row left refuses ARRAY on the module (R51, EMCY 0xFF0F). -/
def Mach.rowsExhausted (m : Mach) (i : IslandId) : Mach :=
  ((m.modIsland i fun x => { x with repairExhausted := true }).suspect 4).emcy 0xFF0F i.val 3 none i.val

/-- A tile's result differs from its answer (R51, R337): a failed rerun, or an earlier failure of the island, asks for one more
derate step, at which the tile runs again, and at step 3 condemns the island. -/
def Mach.gooseFails (m : Mach) (i : IslandId) (rerunsOk : Bool) (rowFault : Option (Fin 99)) : Mach :=
  let x := m.islands[i]
  let row := m.newRow i rowFault
  let again := !rerunsOk || x.failedSinceClear
  let m := (m.cnt 0xF002 133).suspect (if loomIslands.contains i then 1 else 2)
  let m := m.modIsland i fun x => { x with failedSinceClear := true }
  let m := if row.isSome && decide (m.spareRows i = 0) then m.rowsExhausted i else m
  let m := if !again then m
    else if x.effective = 3 then m.condemn i row
    else m.modIsland i fun x => { x with reqGoose := stepUp x.effective, tileDue := true }
  (m.emcy 0xFF0E i.val 3 none i.val 0xF002).gooseHalt

/-- GOOSE_TILE (R335 to R338): a tile that is due, or one of a full rotation, runs at the island's present clock, on a vector island
between two instructions; its result is compared with the factory's answer. -/
def execGooseTile (i : IslandId) (result : Nat) (rerunsOk : Bool) (rowFault : Option (Fin 99)) (s : State) : Host.Outcome State Fault Refusal :=
  runs s fun m =>
    let x := m.islands[i]
    if !gooseTests i ∨ !(x.tileDue || m.goose.rotating) ∨ x.effective ≠ x.wanted ∨ m.midWork i ∨ !m.works ∨ !m.reachable [i] then m
    else
      let right := decide (result = Config.gooseAnswer i.val m.goose.tilesRun)
      let m := m.wake [i]
      let m := { m with goose := { m.goose with tilesRun := (m.goose.tilesRun + 1) % 2 ^ 32 } }
      let m := m.modIsland i fun x => { x with tileDue := false }
      if right then m.modIsland i fun x => { x with lastPass := m.now } else m.gooseFails i rerunsOk rowFault

/-! ### Health (R338) -/

/-- A write of health_clear: GOOD, every Goose derate released, every mark cleared; a full rotation follows before any ARRAY or
VECTOR slot starts. -/
def wrHealthClear : Writer := fun m _ _ =>
  let m := { m with
    goose := { m.goose with cause := 0, rotating := true },
    islands := m.islands.map fun (x : Island) => {
      x with reqGoose := 0, condemned := false, failedSinceClear := false, repairExhausted := false } }
  .ok (m.tilesDue gooseIslands)

/-- HEALTH_CLEAR (R338). -/
def execHealthClear (ch : Channel) (data : Bytes) (s : State) : Host.Outcome State Fault Refusal :=
  runs s fun m => m.dictWrite ch 0x3000 8 data wrHealthClear

/-- GOOSE_ROTATION_DONE (R338): every island has run its tiles. -/
def execGooseRotationDone (s : State) : Host.Outcome State Fault Refusal :=
  runs s fun m => if m.tilesOwed gooseIslands then m else { m with goose := { m.goose with rotating := false } }

/-- A write of suspect_mark. -/
def wrSuspectMark : Writer := fun m _ _ => .ok (m.suspect 16)

/-- SUSPECT_MARK (R338). -/
def execSuspectMark (ch : Channel) (data : Bytes) (s : State) : Host.Outcome State Fault Refusal :=
  runs s fun m => m.dictWrite ch 0x3000 7 data wrSuspectMark

/-! ### Bellwether (R218, R219) -/

/-- A write of bellwether_clear: the table is empty. -/
def wrBellwetherClear : Writer := fun m _ _ =>
  .ok { m with shut := { m.shut with named := Vector.replicate 4 [], suspects := [] } }

/-- BELLWETHER_CLEAR (R219). -/
def execBellwetherClear (ch : Channel) (data : Bytes) (s : State) : Host.Outcome State Fault Refusal :=
  runs s fun m => m.dictWrite ch 0x2C02 1 data wrBellwetherClear

end Sys2Proof.Machine
end

