-- ==== Sys2Proof/Machine/Memory.lean ====
section
/-! DEFINITION. Upkeep of DRAM (R83, R85, R86): training, patrol scrub, calibration. -/

namespace Sys2Proof.Machine

open Sys2Proof

/-! ### Patrol scrub and calibration (R85, R86) -/

/-- Lines of 256 bytes in one channel. -/
def Mach.linesPerChan (m : Mach) : Nat := m.dramCap / 24 / 256

/-- Corrected data of a line is written back (R86). -/
def MemSys.scrub (a : Nat) (s : MemSys) : MemSys := { s with weakUnits := s.weakUnits.filter fun u => !touches a 256 64 u.1 }

/-- PATROL_SCRUB (R85, R86, R320): the next line of a channel is read and corrected. An uncorrectable line is logged with its
address and counted; it is not rewritten, so its units fail at their next read. The manual gives that log record no event code:
a free value (log 42). -/
def execPatrolScrub (chan : DramChan) (r : ScrubResult) (s : State) : Host.Outcome State Fault Refusal :=
  runs s fun m =>
    if m.mem.dramState ≠ 2 ∨ m.linesPerChan = 0 ∨ !m.reachable [island (102 + chan.val)] then m
    else
      let line := m.mem.patrol[chan]
      let a := (line * 24 + chan.val) * 256
      let m := m.modMem fun s => { s with patrol := Vec.upd s.patrol chan fun _ => (line + 1) % m.linesPerChan }
      match r with
      | .clean => (m.readDram a 256 none).modMem (MemSys.scrub a)
      | .corrected dev => (m.dramCe chan dev).modMem (MemSys.scrub a)
      | .uncorrectable =>
        let units := (List.range 4).map fun i => a / 64 + i
        let m := m.modMem fun s => units.foldl (fun s u => s.upset (.dramMulti u)) s
        let i := 102 + chan.val
        let event := Config.freeWord m.freeCtr % 65536
        ((m.drew.cnt 0x7002 i).logAdd event 3 0 (natLe 8 a) 0 none i 0x7002)

/-- ZQ_CALIBRATION (R86, R366): runs inside the memory controller and changes timing only. -/
def execZqCalibration (_chan : DramChan) (s : State) : Host.Outcome State Fault Refusal := runs s fun m => m

/-! ### Training (R83, R409) -/

/-- Capacities and rated speeds that the sockets take (R83, R409). -/
def dimmLegal (r : DimmReport) : Bool := [64, 128, 256].contains r.sizeGib && [8800, 12800].contains r.ratedMts

/-- What a DIMM must equal: the first that is present. -/
def dimmModel (rs : List DimmReport) : Option DimmReport := rs.find? fun r => decide (r.result ≠ .absent)

/-- channel_state after training: ABSENT, ACTIVE, FAILED or MISMATCH. -/
def dimmState (r : DimmReport) (model : Option DimmReport) : Nat :=
  match r.result, model with
  | .absent, _ => 0
  | .mismatch, _ => 4
  | _, none => 4
  | .failed, some _ => 3
  | .trained, some k => if dimmLegal r && decide (r.sizeGib = k.sizeGib) && decide (r.ratedMts = k.ratedMts) then 2 else 4

/-- DRAM_TRAINED (R83, R146, R396): DRAM enters service only when all 24 channels are ACTIVE; contexts with context_enable 1 then
become ENABLED. -/
def execDramTrained (reports : List DimmReport) (s : State) : Host.Outcome State Fault Refusal :=
  runs s fun m =>
    if m.mem.dramState ≠ 1 ∨ reports.length ≠ 24 then m
    else
      let k := dimmModel reports
      let at_ := fun (i : DramChan) => reports.getD i.val ⟨0, 0, .absent⟩
      let ok := reports.all fun r => decide (dimmState r k = 2)
      let rate := min (match k with
        | some r => r.ratedMts
        | none => 0) (m.num 0x2980 4)
      let m := m.modMem fun s => { s with
        chans := Vector.ofFn fun i =>
          let r := at_ i
          let here := decide (r.result ≠ .absent)
          { s.chans[i] with present := here, sizeGib := if here then r.sizeGib else 0, ratedMts := if here then r.ratedMts else 0,
                            st := dimmState r k },
        dramState := if ok then 2 else 0, rateMts := if ok then rate else 0 }
      m.enableContexts

end Sys2Proof.Machine
end

