-- ==== Sys2Proof/Machine/Telemetry.lean ====
section
/-! DEFINITION. Sensors (R353, R354, R403), the error register and emergency messages (R356, R357), the event log's flash side
(R364, R365), and the CAN node's own events (R342 to R345). -/

namespace Sys2Proof.Machine

open Sys2Proof

/-! ### Limits and the error register (R357, R398, R403) -/

/-- Operating limits of a voltage sensor in mV: the 36 V input's, or a rail's, which the manual names and does not give. -/
def voltLimits (n : Nat) : Option (Int × Int) :=
  if n = 108 then some (32000, 40000)
  else if 110 ≤ n ∧ n < 122 then some (Config.railLow n, Config.railHigh n)
  else none

/-- A voltage reads outside its limits: below or above. -/
def Sensor.voltBad (x : Sensor) (n : Nat) : Option Bool :=
  match voltLimits n with
  | some (lo, hi) => if x.status ≠ .ok then none else if x.value < lo then some false else if hi < x.value then some true else none
  | none => none

/-- The coolant inlet is at or above its limit (R403). -/
def Mach.inletHot (m : Mach) : Bool :=
  let x := m.sensors[(154 : SensorId)]
  decide (x.status = .ok) && decide (40000 ≤ x.value)

/-- The error register (R357). A die without a working sensor counts as at its throttle point, and holds bit 7 (R354). -/
def Mach.errorReg (m : Mach) : Nat :=
  let b2 := (fins 159).any fun n => ((m.sensors[n]).voltBad n.val).isSome
  let b3 := m.inletHot || (List.range 5).any m.dieHot
  let b4 := m.mgmt.canPassive
  let b7 := decide (m.goose.cause ≠ 0) || (List.range 5).any m.dieBlind || (m.ctxs.toList.any fun x => decide (x.st = .faulted)) ||
    (m.net.folds.toList.any fun f => f.fenced || decide (f.st = .deviated)) ||
    (m.drover.slots.toList.any fun k => decide (k.st = .failed)) ||
    !(decide (m.drover.vault = 0) || decide (m.drover.vault = 0xFF))
  (if b2 then 4 else 0) + (if b3 then 8 else 0) + (if b4 then 16 else 0) + (if b7 then 128 else 0) +
    (if b2 || b3 || b4 || b7 then 1 else 0)

/-- When the last bit of the error register clears, EMCY 0x0000 follows (R357, log 43). -/
def Mach.settleErrors (m : Mach) : Mach :=
  if m.mgmt.errOwed ∧ m.errorReg = 0 then (m.emcy 0 0 0).modMgmt fun g => { g with errOwed := false } else m

/-! ### Sensors (R353, R354, R403) -/

/-- Change one sensor. -/
def Mach.modSensor (m : Mach) (n : SensorId) (f : Sensor → Sensor) : Mach := { m with sensors := Vec.upd m.sensors n f }

/-- A reading that is OK: the value, the peak, and the throttle flag, which stays until 3 °C below the throttle point (R403). -/
def Sensor.take (x : Sensor) (n : Nat) (v : Int) : Sensor :=
  { value := v, status := .ok, peak := some (max v (x.peak.getD v)),
    throttled := match criticalOf n with
      | some (t, _) => decide (t ≤ v) || (x.throttled && decide (t - 3000 < v))
      | none => false }

/-- The die that a sensor belongs to, if any. -/
def dieOf (n : Nat) : Option Nat := if n < 96 then some (n / 24) else if n < 108 then some 4 else none

/-- EMCYs that a sensor's new reading raises, against the one before (R357, R398, R403). -/
def Mach.sensorEmcys (m : Mach) (n : SensorId) (old new : Sensor) (inletWas : Bool) : Mach :=
  let detail := if n = 108 then new.value.toNat else n.val
  let m := match new.voltBad n.val with
    | none => m
    | some high =>
      if old.voltBad n.val = some high then m
      else if n = 108 then m.emcy (if high then 0x3110 else 0x3120) detail 2 none 133
      else m.emcy (if high then 0x3210 else 0x3220) detail 2 none 133
  let m := if new.throttled && !old.throttled then m.emcy 0x4210 n.val 2 none 133 else m
  if n = 154 && m.inletHot && !inletWas then m.emcy 0x4110 new.value.toNat 2 none 133 else m

/-- A die has lost its last working sensor: EMCY 0x5010 (R354). -/
def Mach.blindEmcy (m : Mach) (n : SensorId) (was : Bool) : Mach :=
  match dieOf n.val with
  | none => m
  | some d => if m.dieBlind d && !was then m.emcy 0x5010 d 2 none 133 else m

/-- A die's reading 1 °C or more beyond the band it left last lets that band count again (R336). -/
def Mach.armBand (m : Mach) (n : SensorId) : Mach :=
  if 96 ≤ n.val then m
  else
    let d : DieId := Fin.ofNat 4 (n.val / 24)
    match m.dieTemp d.val, m.goose.bands[d] with
    | some t, some (cur, some k) =>
      if t < k * 5000 - 1000 ∨ (k + 1) * 5000 + 1000 ≤ t then
        { m with goose := { m.goose with bands := Vec.upd m.goose.bands d fun _ => some (cur, none) } }
      else m
    | _, _ => m

/-- A sensor takes a new state. -/
def Mach.sensorSet (m : Mach) (n : SensorId) (f : Sensor → Sensor) : Mach :=
  let old := m.sensors[n]
  let blind := match dieOf n.val with
    | some d => m.dieBlind d
    | none => false
  let inlet := m.inletHot
  let m := m.modSensor n f
  (((m.sensorEmcys n old (m.sensors[n]) inlet).blindEmcy n blind).armBand n).settleErrors

/-- SENSOR_POLL (R353, R354, R357, R403): a reading, a failure, or nobody there. -/
def execSensorPoll (n : SensorId) (r : Reading) (s : State) : Host.Outcome State Fault Refusal :=
  runs s fun m =>
    if !m.mgmtUp then m
    else m.sensorSet n fun x => match r with
      | .value v => x.take n.val v
      | .failed => { x with status := .failed, throttled := false }
      | .absent => { x with status := .absent, throttled := false }

/-- SENSOR_STALE (R354): four periods without a reading; the value stays. -/
def execSensorStale (n : SensorId) (s : State) : Host.Outcome State Fault Refusal :=
  runs s fun m =>
    if !m.mgmtUp ∨ (m.sensors[n]).status ≠ .ok then m else m.sensorSet n fun x => { x with status := .stale, throttled := false }

/-- A write of sensor_peak_clear. -/
def wrPeakClear : Writer := fun m _ _ => .ok { m with sensors := m.sensors.map fun (x : Sensor) => { x with peak := none } }

/-- SENSOR_PEAK_CLEAR (R354). -/
def execSensorPeakClear (ch : Channel) (data : Bytes) (s : State) : Host.Outcome State Fault Refusal :=
  runs s fun m => m.dictWrite ch 0x2303 0xA1 data wrPeakClear

/-! ### Emergency messages (R356) -/

/-- The 12-byte manufacturer field of R356. -/
def Emcy.field (e : Emcy) : Bytes :=
  natLe 12 (e.logSeq.toNat + (match e.ctx with
    | some c => 2 ^ 37 + c.val * 2 ^ 38
    | none => 0) + e.island.toNat * 2 ^ 40 + e.source.toNat * 2 ^ 48 + e.detail.toNat * 2 ^ 64)

/-- The node speaks on CAN: a node ID, and a state that is not INITIALISATION (R343, R345). -/
def Mach.canNode (m : Mach) : Bool := m.mgmtUp && decide (m.mgmt.nodeId ≠ 0) && decide (m.mgmt.nmt ≠ .initialisation)

/-- PRE-OPERATIONAL or OPERATIONAL (R345). -/
def Mach.canServes (m : Mach) : Bool := m.canNode && decide (m.mgmt.nmt ≠ .stopped)

/-- EMCY_SEND (R356). -/
def execEmcySend (s : State) : Host.Outcome State Fault Refusal :=
  runs s fun m =>
    let m := if m.mgmtUp then m.settleErrors else m
    match m.mgmt.emcyQ with
    | [] => m
    | e :: rest =>
      if m.canServes then
        (m.modMgmt fun g => { g with emcyQ := rest }).send (.emcy e.code (BitVec.ofNat 8 m.errorReg) e.field)
      else m

/-- CAN_RX_OVERRUN (R357). -/
def execCanRxOverrun (lost : Nat) (s : State) : Host.Outcome State Fault Refusal :=
  runs s fun m => if m.mgmtUp then (m.cnt 0xF006 133).emcy 0x8110 lost 2 none 133 0xF006 else m

/-- CAN_BUS_OFF_RECOVERED (R357). -/
def execCanBusOffRecovered (s : State) : Host.Outcome State Fault Refusal :=
  runs s fun m =>
    if m.mgmtUp then
      let n := m.mgmt.busOffCount + 1
      ((m.modMgmt fun g => { g with busOffCount := n }).cnt 0xF007 133).emcy 0x8140 n 2 none 133 0xF007
    else m

/-- CAN_ERROR_PASSIVE (R357): bit 4 of the error register follows the controller. -/
def execCanErrorPassive (passive : Bool) (s : State) : Host.Outcome State Fault Refusal :=
  runs s fun m =>
    if m.mgmtUp then
      (m.modMgmt fun g => { g with canPassive := passive, errOwed := g.errOwed || passive }).settleErrors
    else m

/-! ### The log in NOR and its mirror (R341, R364) -/

/-- Records of one NOR sector and of the whole ring. -/
def sectorRecords : Nat := 1024
def ringRecords : Nat := 65 * 1024

/-- A record is programmed; a full ring loses its oldest sector. -/
def Log.program (g : Log) (r : LogRec) : Log :=
  let ring := g.ring ++ [r]
  { g with ring := if ring.length < ringRecords then ring else ring.drop sectorRecords }

/-- LOG_RECORD_WRITE (R364): the oldest queued record goes to NOR; once there is room, one record tells how many were discarded. -/
def execLogRecordWrite (s : State) : Host.Outcome State Fault Refusal :=
  runs s fun m =>
    match m.log.queue with
    | [] => m
    | r :: rest =>
      if !m.mgmtUp then m
      else
        let n := m.log.discarded
        let m := { m with log := { m.log.program r with queue := rest, discarded := 0 } }
        if n = 0 then m else m.logAdd 0xFE07 0 0 (natLe 4 n)

/-- Records of filled sectors that the mirror does not hold yet. -/
def Log.unmirrored (g : Log) : List LogRec :=
  let filled := g.ring.take (g.ring.length / sectorRecords * sectorRecords)
  match g.mirror.getLast? with
  | some r => filled.filter fun x => seqBefore (2 ^ 31 - 1) r.seq x.seq
  | none => filled

/-- LOG_MIRROR_COPY (R364): the Drover copies filled sectors into the mirror of 2^24 records. -/
def execLogMirrorCopy (s : State) : Host.Outcome State Fault Refusal :=
  runs s fun m =>
    if m.grade = .n ∨ !m.works ∨ !m.reachable [130] then m
    else
      let all := m.log.mirror ++ m.log.unmirrored
      { (m.wake [130]) with log := { m.log with mirror := all.drop (all.length - 2 ^ 24) } }

/-! ### The CAN node (R342 to R345, R365) -/

/-- WATCHDOG_RESTART (R342): firmware has not serviced the watchdog for 2 s. -/
def execWatchdogRestart (s : State) : Host.Outcome State Fault Refusal :=
  runs s fun m => if m.mgmtUp then m.beginMgmt 6 else m

/-- An NMT command reaches the node. -/
def Mach.nmtTo (m : Mach) (st : Nmt) : Mach := if m.canNode then m.modMgmt fun g => { g with nmt := st } else m

/-- NMT_START (R345). -/
def execNmtStart (s : State) : Host.Outcome State Fault Refusal := runs s fun m => m.nmtTo .operational

/-- NMT_STOP (R345). -/
def execNmtStop (s : State) : Host.Outcome State Fault Refusal := runs s fun m => m.nmtTo .stopped

/-- NMT_ENTER_PRE_OPERATIONAL (R345). -/
def execNmtEnterPreOperational (s : State) : Host.Outcome State Fault Refusal := runs s fun m => m.nmtTo .preOperational

/-- NMT_RESET_NODE (R342, R345): a management-only reset. -/
def execNmtResetNode (s : State) : Host.Outcome State Fault Refusal :=
  runs s fun m => if m.canNode then m.beginMgmt 7 else m

/-- NMT state codes in a heartbeat (CiA 301). -/
def Nmt.code : Nmt → Nat
  | .initialisation => 0 | .stopped => 4 | .operational => 5 | .preOperational => 0x7F

/-- HEARTBEAT (R344, R345, R351). -/
def execHeartbeat (s : State) : Host.Outcome State Fault Refusal :=
  runs s fun m => if m.canNode ∧ m.num 0x1017 0 ≠ 0 then m.send (.heartbeat m.mgmt.nmt.code) else m

/-- TIME (R345, R365): logged with the timestamp at receipt; the module's own clock stays as it is. -/
def execTime (value : BitVec 48) (s : State) : Host.Outcome State Fault Refusal :=
  runs s fun m =>
    if m.canServes ∧ bit (m.num 0x1012 0) 31 then m.logAdd 0xFE02 0 0 (natLe 8 m.now ++ natLe 6 value.toNat) else m

end Sys2Proof.Machine
end

