-- ==== Sys2Proof/Machine/Firmware.lean ====
section
/-! DEFINITION. Secure boot, fuses and firmware update (R367 to R375). -/

namespace Sys2Proof.Machine

open Sys2Proof

/-! ### The firmware image (R367, R368) -/

/-- k bytes of a bank from offset o; erased NOR reads as 0xFF. -/
def Bank.bytes (b : Bank) (o k : Nat) : Bytes := (List.range k).map fun i => (b.image[o + i]?).getD 0xFF

/-- The manifest header as a number (R367). -/
def Bank.header (b : Bank) : Nat := leNat (b.bytes 0 128)

/-- Fields of a manifest header (R367). -/
def hdrPayload (h : Nat) : Nat := bits h 95 64
def hdrVersion (h : Nat) : Nat := bits h 127 96
def hdrBuild (h : Nat) : Nat := bits h 191 128
def hdrOwnerSigned (h : Nat) : Bool := bit h 224

/-- The largest payload, 32 MiB less the manifest (R367). -/
def maxPayload : Nat := 33546240

/-- A header that R368 fails with BAD_HEADER. -/
def headerBad (h : Nat) : Bool :=
  decide (bits h 31 0 ≠ 0x4B534C56) || decide (bits h 39 32 ≠ 1) || decide (bits h 47 40 ≠ 0xA1) ||
    decide (maxPayload < hdrPayload h) || decide (bits h 63 48 ≠ 0) || decide (bits h 223 192 ≠ 0) ||
    decide (bits h 255 225 ≠ 0) || decide (bits h 1023 512 ≠ 0)

/-- The image digest: SHA3-256 over the manifest header and the payload (R368). -/
def Bank.imageDigest (b : Bank) : Bytes :=
  sha3 (b.bytes 0 128 ++ b.bytes 8192 (min (hdrPayload b.header) maxPayload))

/-- The ASCII bytes of a string. -/
def ascii (t : String) : Bytes := t.toList.map fun c => BitVec.ofNat 8 c.toNat

/-- The fused hash of the vendor key, as 32 bytes. -/
def vendorHash : Bytes := natLe 32 Config.vendorKeyHash.toNat

/-- Set fuses of the rollback counter (R369). -/
def Fuses.rollbackCount (f : Fuses) : Nat := ((List.range 64).filter fun i => f.rollback.getLsbD i).length

/-- The procedure verify of R368: the digest, or the code of fw_update_status. -/
def Bank.verify (b : Bank) (f : Fuses) : Except Nat Bytes :=
  let h := b.header
  let vendorKey := b.bytes 128 1312
  let ownerKey := b.bytes 3860 1312
  let d := b.imageDigest
  if headerBad h then .error 1
  else if sha3 vendorKey ≠ vendorHash then .error 2
  else if !Config.mldsaVerify vendorKey d (b.bytes 1440 2420) (ascii "VLS-FW") then .error 3
  else if f.ownerEnrolled && (!hdrOwnerSigned h || decide (sha3 ownerKey ≠ f.ownerHash)) then .error 4
  else if f.ownerEnrolled && !Config.mldsaVerify ownerKey d (b.bytes 5172 2420) (ascii "VLS-FW-OWNER") then .error 5
  else if hdrVersion h < f.rollbackCount then .error 6
  else .ok d

/-! ### Banks -/

/-- Change the firmware's state. -/
def Mach.modFw (m : Mach) (f : Fw → Fw) : Mach := { m with fw := f m.fw }

/-- The bank that is not running. -/
def Fw.inactive (w : Fw) : Fin 2 := w.running + 1

/-- Change one bank. -/
def Fw.modBank (w : Fw) (i : Fin 2) (f : Bank → Bank) : Fw := { w with banks := Vec.upd w.banks i f }

/-- The running image's security_version and build (R367). -/
def Mach.runningHeader (m : Mach) : Nat := (m.fw.banks[m.fw.running]).header

/-! ### The update session (R375) -/

/-- A session exists and belongs to another channel. -/
def Mach.fwForeign (m : Mach) (ch : Channel) : Bool := decide (m.fw.session ≠ .idle) && decide (m.fw.owner ≠ ch)

/-- BEGIN: the inactive bank is being erased. A session that stands at VALID or STAGED begins anew (log 48). -/
def Mach.fwBegin (m : Mach) (ch : Channel) : Wr :=
  .guard (decide ((m.fw.banks[m.fw.running]).st ≠ .confirmed) || !([FwSession.idle, .valid, .staged].contains m.fw.session)) abState
    (.ok (m.modFw fun w => { w.modBank w.inactive (fun _ => ⟨[], .empty, [], 0⟩) with
      session := .erasing, owner := ch, received := 0, status := 0 }))

/-- VERIFY: verification starts. -/
def Mach.fwVerify (m : Mach) : Wr :=
  .guard (decide (m.fw.session ≠ .receiving)) abState (.ok (m.modFw fun w => { w with session := .verifying }))

/-- STAGE: the verified bank is to boot as a trial. -/
def Mach.fwStage (m : Mach) : Wr :=
  .guard (decide (m.fw.session ≠ .valid)) abState
    (.ok (m.modFw fun w => { w.modBank w.inactive (fun b => { b with st := .staged }) with session := .staged, attempts := 0 }))

/-- CANCEL: STAGED falls back to VALID; every other session ends. -/
def Mach.fwCancel (m : Mach) : Wr :=
  .ok (m.modFw fun w =>
    if w.session = .staged then { w.modBank w.inactive (fun b => { b with st := .valid }) with session := .valid } else w.endSession)

/-- The writer of fw_update_command (R375, R381). -/
def wrFwCommand : Writer := fun m ch v =>
  let n := v.toNum
  .guard (decide (n < 1) || decide (4 < n)) abRange
    (.guard (m.fwForeign ch) abState
      (if n = 1 then m.fwBegin ch else if n = 2 then m.fwVerify else if n = 3 then m.fwStage else m.fwCancel))

/-- FW_BEGIN (R375). -/
def execFwBegin (ch : Channel) (s : State) : Host.Outcome State Fault Refusal :=
  runs s fun m => m.dictWrite ch 0x2F01 1 [1] wrFwCommand

/-- FW_VERIFY (R375). -/
def execFwVerify (ch : Channel) (s : State) : Host.Outcome State Fault Refusal :=
  runs s fun m => m.dictWrite ch 0x2F01 1 [2] wrFwCommand

/-- FW_STAGE (R375). -/
def execFwStage (ch : Channel) (s : State) : Host.Outcome State Fault Refusal :=
  runs s fun m => m.dictWrite ch 0x2F01 1 [3] wrFwCommand

/-- FW_CANCEL (R375). -/
def execFwCancel (ch : Channel) (s : State) : Host.Outcome State Fault Refusal :=
  runs s fun m => m.dictWrite ch 0x2F01 1 [4] wrFwCommand

/-- FW_ERASE_COMPLETE (R375). -/
def execFwEraseComplete (s : State) : Host.Outcome State Fault Refusal :=
  runs s fun m => if m.mgmtUp ∧ m.fw.session = .erasing then m.modFw fun w => { w with session := .receiving } else m

/-- The writer of fw_image at an offset: it starts at fw_bytes_received and stays within the bank (R375). -/
def wrFwImage (offset : Nat) : Writer := fun m ch v =>
  let b := v.toBytes
  .guard (decide (offset ≠ m.fw.received) || decide (2 ^ 25 < offset + b.length)) abRange
    (.guard (m.fwForeign ch || decide (m.fw.session ≠ .receiving)) abState
      (.ok (m.modFw fun w => { w.modBank w.inactive (fun k => { k with image := k.image ++ b }) with received := w.received + b.length })))

/-- FW_IMAGE (R375). -/
def execFwImage (ch : Channel) (offset : Nat) (data : Bytes) (s : State) : Host.Outcome State Fault Refusal :=
  runs s fun m => m.dictWrite ch 0x2F01 3 data (wrFwImage offset)

/-- What a verification leaves (R368, R375): the bank VALID with its digest, or INVALID and the session over. -/
def Mach.fwVerified (m : Mach) (f : Fuses) : Mach :=
  m.modFw fun w =>
    let b := w.banks[w.inactive]
    match b.verify f with
    | .ok d => { w.modBank w.inactive (fun b => { b with st := .valid, digest := d, version := hdrVersion b.header }) with session := .valid }
    | .error e => { w.modBank w.inactive (fun b => { b with st := .invalid, digest := [], version := 0 }) with session := .idle, status := e }

/-- FW_VERIFY_COMPLETE (R368, R375). -/
def execFwVerifyComplete (s : State) : Host.Outcome State Fault Refusal :=
  runs s fun m => if m.mgmtUp ∧ m.fw.session = .verifying then m.fwVerified s.fuses else m

/-! ### Fuses (R369 to R371) -/

/-- "fuse": the code every commit carries (R369). -/
def fuseCode : Nat := 0x65737566

/-- The last reading of the input voltage lies outside the operating limit (R369, R398). -/
def Mach.fuseVoltageBad (m : Mach) : Bool :=
  let x := m.sensors[(108 : SensorId)]
  (decide (x.status = .ok) || decide (x.status = .stale)) && (decide (x.value < 32000) || decide (40000 < x.value))

/-- Every 1 of a hash is a 1 of another (R370). -/
def hashCovers (new old : Bytes) : Bool :=
  decide (old.length ≤ new.length) && (old.zip new).all fun p => decide (p.1 &&& p.2 = p.1)

/-- Blow the lowest fuses that are still 0, until n are set or `fuel` runs out (R371). -/
def advanceTo (n : Nat) : Nat → Fuses → Fuses
  | 0, f => f
  | fuel + 1, f => if f.rollbackCount < n then advanceTo n fuel { f with rollback := f.rollback ||| (f.rollback + 1) } else f

/-- A write of a commit object: the fuses it leaves, or the abort code (R369 to R371). The code is checked before the voltage
(log 47). -/
def fuseCommit (f : Fuses) (m : Mach) (sub : Nat) (v : Val) : Except Nat Fuses :=
  if sub = 3 then
    let b := v.toBytes
    let hash := b.drop 4
    if b.length ≠ 36 ∨ getLe b 0 4 ≠ fuseCode then .error abStore
    else if m.fuseVoltageBad then .error abState
    else if !hashCovers hash f.ownerHash || (f.ownerEnrolled && decide (hash ≠ f.ownerHash)) then .error abStore
    else .ok { f with ownerHash := hash, ownerEnrolled := true }
  else if v.toNum ≠ fuseCode then .error abStore
  else if m.fuseVoltageBad then .error abState
  else if sub = 4 then .ok { f with secureBoot := true }
  else if (m.fw.banks[m.fw.running]).st ≠ .confirmed then .error abState
  else .ok (advanceTo (hdrVersion m.runningHeader) 64 f)

/-- A write of 0x2F02 through the checks of R347. Each commit is logged with event 0xFE08 (R369). -/
def State.fuseWrite (s : State) (ch : Channel) (sub : Nat) (data : Bytes) (answer : Nat → Out) : State :=
  match s.m.checkWrite ch 0x2F02 sub data with
  | .error e => s.onMach fun m => m.refused answer e
  | .ok r => match fuseCommit s.fuses s.m sub (r.ty.value data) with
    | .error e => s.onMach fun m => m.refused answer e
    | .ok f => { s with fuses := f, m := (s.m.logWrite ch 0x2F02 sub data).reply (answer 0) }

/-- A fuse row of the table. -/
def fuseRow (ch : Channel) (sub : Nat) (data : Bytes) (s : State) : Host.Outcome State Fault Refusal :=
  .next (if s.m.chanUp ch then s.fuseWrite ch sub data (wroteOut ch 0x2F02 sub) else s)

/-- OWNER_KEY_ENROLL (R370). -/
def execOwnerKeyEnroll (ch : Channel) (data : Bytes) (s : State) : Host.Outcome State Fault Refusal := fuseRow ch 3 data s

/-- SECURE_BOOT_FUSE_COMMIT (R369). -/
def execSecureBootFuseCommit (ch : Channel) (data : Bytes) (s : State) : Host.Outcome State Fault Refusal := fuseRow ch 4 data s

/-- ROLLBACK_ADVANCE (R371). -/
def execRollbackAdvance (ch : Channel) (data : Bytes) (s : State) : Host.Outcome State Fault Refusal := fuseRow ch 6 data s

end Sys2Proof.Machine
end

