-- ==== Sys2Proof/Machine/Boot.lean ====
section
/-! DEFINITION. The dictionary store (R349, R392), Reset Communication (R345), the boot ROM and the firmware's start (R372, R373,
R392, R396). -/

namespace Sys2Proof.Machine

open Sys2Proof

/-! ### What a store captures (R349, R394) -/

/-- A stored object is one a write can change and that Kept P keeps. -/
def ObjRow.stored (r : ObjRow) : Bool := decide (r.kept = .p) && decide (r.acc = .rw)

/-- Does the store keep an object, by its key? -/
def storedKey (k : Nat) : Bool :=
  match objRow? (k / 256) (k % 256) with
  | some r => r.stored
  | none => false

/-- Objects whose default follows the straps or the node ID: a store captures them even at their default. -/
def followers : List (Nat × Nat) :=
  [(0x2F00, 11), (0x2700, 1)] ++ (allLinks.map fun l => (0x2600 + l.val, 2)) ++ (List.range 4).map fun t => (0x1800 + t, 1)

/-- A counter's configuration, as its three objects (R362). -/
def counterVals (k : CounterId) (x : Counter) : List (Nat × Val) :=
  let put := fun (f : CounterField) (n d : Nat) =>
    if n = d then [] else [(objKey (counterBase f + k.val / 128) (k.val % 128 + 1), Val.num n)]
  put .source x.source.toNat 0 ++ put .filter x.filter.toNat 0 ++ put .owner x.owner.toNat 0xFF

/-- The values of the P objects, captured in one step (R349 step 1); what is not listed is at its default. -/
def Mach.captured (m : Mach) : Sparse Val :=
  let own := m.dict.filter fun e => storedKey e.1
  let t := followers.foldl (fun t o => Sparse.put (objKey o.1 o.2) (m.obj o.1 o.2) t) own
  ((fins 255).flatMap fun k => counterVals k m.counters[k]).foldl (fun t e => Sparse.put e.1 e.2 t) t

/-- The valid copy with the higher store count. -/
def Mgmt.newest (g : Mgmt) : Option (Fin 2) :=
  let a := g.copies[(0 : Fin 2)]
  let b := g.copies[(1 : Fin 2)]
  if a.valid ∧ (!b.valid ∨ b.count < a.count) then some 0 else if b.valid then some 1 else none

/-- The copy that the next store erases: the one that is not in force. -/
def Mgmt.older (g : Mgmt) : Fin 2 := if g.newest = some 0 then 1 else 0

/-- The stored values in force. -/
def Mgmt.storeVals (g : Mgmt) : Sparse Val :=
  match g.newest with
  | some k => g.copies[k].values
  | none => []

/-- Change one store copy. -/
def Mach.modCopy (m : Mach) (k : Fin 2) (f : StoreCopy → StoreCopy) : Mach :=
  m.modMgmt fun g => { g with copies := Vec.upd g.copies k f }

/-- The writer of store_parameters: captures, and erases the older copy. The write is answered when the copy is programmed; a
second one until then is refused (log 34). -/
def wrStoreParams : Writer := fun m ch v =>
  if v.toNum ≠ 0x65766173 then .err abStore
  else if m.mgmt.store.isSome then .err abState
  else
    let k := m.mgmt.older
    .later ((m.modCopy k fun c => { c with valid := false }).modMgmt fun g => {
      g with store := some ⟨wroteOut ch 0x1010 1 0, k.val, m.captured⟩ })

/-- STORE_PARAMETERS (R349). -/
def execStoreParameters (ch : Channel) (data : Bytes) (s : State) : Host.Outcome State Fault Refusal :=
  runs s fun m => m.dictWrite ch 0x1010 1 data wrStoreParams

/-- Program values into a copy, one count above the other. -/
def Mach.programCopy (m : Mach) (k : Fin 2) (vals : Sparse Val) : Mach :=
  m.modCopy k fun _ => ⟨true, (m.mgmt.copies[k + 1]).count + 1, vals⟩

/-- STORE_COMPLETE (R349 steps 3 and 4): programmed, answered, logged. -/
def execStoreComplete (s : State) : Host.Outcome State Fault Refusal :=
  runs s fun m =>
    match m.mgmt.store with
    | none => m
    | some t =>
      if !m.mgmtUp then m
      else
        let k : Fin 2 := Fin.ofNat 2 t.copy
        let m := (m.programCopy k t.values).modMgmt fun g => { g with store := none }
        (m.reply t.answer).logAdd 0xFE06 0 0 (natLe 8 (m.mgmt.copies[k]).count)

/-- The writer of restore_default_parameters: both copies are void. -/
def wrRestore : Writer := fun m _ v =>
  if v.toNum ≠ 0x64616F6C then .err abStore
  else .ok (m.modMgmt fun g => { g with copies := g.copies.map fun (c : StoreCopy) => { c with valid := false } })

/-- RESTORE_DEFAULT_PARAMETERS (R349). -/
def execRestoreDefaultParameters (ch : Channel) (data : Bytes) (s : State) : Host.Outcome State Fault Refusal :=
  runs s fun m => m.dictWrite ch 0x1011 1 data wrRestore

/-! ### Loading the store (R349, R392) -/

/-- The straps rule an object unless its override bit was stored (R392). -/
def strapRules (mask idx sub : Nat) : Bool :=
  (decide (idx = 0x2F00) && decide (sub = 11) && !bit mask 9) || (decide (idx = 0x2700) && decide (sub = 1) && !bit mask 11) ||
    (decide (0x2600 ≤ idx) && decide (idx < 0x2624) && decide (sub = 2) && !bit mask 13)

/-- Is a key one of the counters' objects? -/
def counterKey (k : Nat) : Bool := decide (0x2D20 * 256 ≤ k) && decide (k < 0x2D50 * 256)

/-- A stored number, or a default. -/
def storedNum (vals : Sparse Val) (idx sub d : Nat) : Nat :=
  match Sparse.find (objKey idx sub) vals with
  | some v => v.toNum
  | none => d

/-- The configuration of a counter as stored. -/
def storedCounter (vals : Sparse Val) (k : CounterId) (x : Counter) : Counter :=
  let at_ := fun (f : CounterField) (d : Nat) => storedNum vals (counterBase f + k.val / 128) (k.val % 128 + 1) d
  { x with source := BitVec.ofNat 16 (at_ .source 0), filter := BitVec.ofNat 32 (at_ .filter 0), owner := BitVec.ofNat 8 (at_ .owner 0xFF) }

/-- Put stored values of some objects in force in place of those the dictionary holds. -/
def Mach.reload (m : Mach) (p : Nat → Bool) : Mach :=
  let vals := m.mgmt.storeVals
  let mask := storedNum vals 0x2000 2 0
  let new := vals.filter fun e => p e.1 && !counterKey e.1 && !strapRules mask (e.1 / 256) (e.1 % 256)
  { m with dict := new.foldl (fun t e => Sparse.put e.1 e.2 t) (m.dict.filter fun e => !(p e.1 && storedKey e.1)) }

/-- Every P object takes its stored value, or its default (R349, R394). -/
def Mach.loadStore (m : Mach) : Mach :=
  let m := m.reload fun _ => true
  { m with counters := Vector.ofFn fun k => storedCounter m.mgmt.storeVals k m.counters[k] }

/-! ### The CAN node starts (R343, R345, R392) -/

/-- Node ID and bit rates in force (R392). -/
def Mach.canSetup (m : Mach) : Mach :=
  let id := (m.pwr.straps.extractLsb' 0 7).toNat
  let rate := (m.pwr.straps.extractLsb' 7 2).toNat
  m.modMgmt fun g => { g with
    nodeId := if id ≠ 0 then id else m.num 0x2000 3 % 128, canRate := if rate ≠ 3 then rate else m.num 0x2000 4 }

/-- The node leaves INITIALISATION with its boot-up message (R345); without a node ID it sends nothing (R343). -/
def Mach.canStart (m : Mach) : Mach :=
  let m := m.canSetup.modMgmt fun g => { g with nmt := .preOperational, usdo := .idle, canPassive := false }
  if m.mgmt.nodeId = 0 then m else m.send .bootUp

/-- NMT_RESET_COMMUNICATION (R345, R392): the communication objects take their stored values, and the node starts again. -/
def execNmtResetCommunication (s : State) : Host.Outcome State Fault Refusal :=
  runs s fun m => if m.canNode then (m.reload fun k => decide (k < 0x2000 * 256)).canStart else m

/-! ### The boot ROM (R372, R373) -/

/-- Secure boot is enforced (R372). -/
def Mach.enforced (m : Mach) (f : Fuses) : Bool := f.secureBoot || m.pwr.straps.getLsbD 14

/-- The bank the ROM takes first: on a cold or warm reset a bank that is to be tried (log 45), else boot_bank; on a
management-only reset the bank that was running. -/
def Mach.firstBank (m : Mach) : Fin 2 :=
  let w := m.fw
  let trial := [(0 : Fin 2), 1].find? fun i => decide ((w.banks[i]).st = .staged) || decide ((w.banks[i]).st = .trial)
  if m.pwr.mgmtResetting then w.running else trial.getD (Fin.ofNat 2 (m.num 0x2F00 11))

/-- A bank is INVALID from now on. -/
def Fw.reject (w : Fw) (i : Fin 2) : Fw := { w.modBank i (fun b => { b with st := .invalid }) with attempts := 0 }

/-- boot_flags of R377. -/
def bootFlags (enforced verified owner recovery trial : Bool) : BitVec 8 :=
  BitVec.ofNat 8 (b2n enforced + 2 * b2n verified + 4 * b2n owner + 8 * b2n recovery + 16 * b2n trial)

/-- One bank is tried (R373 steps 2 and 3): the machine, and whether the bank runs. -/
def Mach.tryBank (m : Mach) (f : Fuses) (i : Fin 2) : Mach × Bool :=
  let b := m.fw.banks[i]
  if b.st = .empty ∨ b.st = .invalid then (m, false)
  else
    let trial := decide (b.st ≠ .confirmed)
    let m := if trial then m.modFw fun w => { w with attempts := w.attempts + 1 } else m
    if trial ∧ 4 ≤ m.fw.attempts then
      ((m.modFw fun w => w.reject i).logAdd 0xFE00 5 0 (Config.layout 0xFE00 1 [i.val]), false)
    else
      let v := b.verify f
      let ok : Bool := v.toBool
      if !ok ∧ m.enforced f then (m.modFw fun w => w.reject i, false)
      else
        (m.modFw fun w => { w.modBank i (fun b => {
            b with st := if trial then .trial else .confirmed, digest := b.imageDigest, version := hdrVersion b.header }) with
          running := i, flags := bootFlags (m.enforced f) ok (ok && f.ownerEnrolled) m.recovery trial }, true)

/-- The ROM's selection: the first bank, else the other (R373). -/
def Mach.bootSelect (m : Mach) (f : Fuses) : Mach × Bool :=
  let i := m.firstBank
  match m.tryBank f i with
  | (m, true) => (m, true)
  | (m, false) => m.tryBank f (i + 1)

/-- What firmware records once it runs (R342, R357, R365): a cold boot, or a management restart. -/
def Mach.bootRecords (m : Mach) : Mach :=
  if m.pwr.mgmtResetting then
    let n := m.mgmt.restarts + 1
    let m := (m.modMgmt fun g => { g with restarts := n }).modPwr fun p => { p with mgmtResetting := false }
    let m := (m.logAdd 0xFE01 0 0 (Config.layout 0xFE01 0 [m.freeCtr])).cnt 0xF009 133
    if m.pwr.lastCause = 6 then m.emcy 0x6100 n.toNat 2 none 133 0xF009 else m
  else if m.pwr.resetting = some .cold then
    m.logAdd 0xFE00 0 0 (Config.layout 0xFE00 0 [m.fw.running.val, m.pwr.straps.toNat, hdrVersion m.runningHeader])
  else m

/-- The boot ROM may run: the management island is out of reset and no firmware runs yet. -/
def Mach.romReady (m : Mach) : Bool :=
  decide (m.pwr.boot = .rom) && !m.pwr.resetNLow && decide (m.pwr.modState ≠ .off) && decide ((m.islands[(133 : IslandId)]).st = .run)

/-- A boot (R373, R392, R396): store, selection, firmware, CAN node. With no bank left the boot loop answers nothing. -/
def Mach.bootRun (m : Mach) (f : Fuses) : Mach :=
  let m := if m.pwr.mgmtResetting then m else m.loadStore
  match m.bootSelect f with
  | (m, false) => m.modPwr fun p => { p with boot := .bootLoop }
  | (m, true) => (m.modPwr fun p => { p with boot := .running }).canStart.bootRecords

/-- BOOT (R373). -/
def execBoot (s : State) : Host.Outcome State Fault Refusal :=
  runs s fun m => if m.romReady then m.bootRun s.fuses else m

/-- ALERT_N is driven low: error_register bit 0, or the boot loop (R373, R395). -/
def Mach.alertLow (m : Mach) : Bool :=
  decide (m.pwr.modState ≠ .off) && !m.pwr.resetNLow && (decide (m.pwr.boot = .bootLoop) || (m.mgmtUp && bit m.errorReg 0))

/-- Trial firmware confirms its bank (R373, R392): boot_bank and override bit 9 are written and stored at once. -/
def Mach.confirm (m : Mach) : Mach :=
  let i := m.fw.running
  let m := m.modFw fun w => { w.modBank i (fun b => { b with st := .confirmed }) with attempts := 0 }
  let mask := if bit (m.num 0x2000 2) 9 then m.num 0x2000 2 else m.num 0x2000 2 + 512
  let put := fun (t : Sparse Val) => Sparse.put (objKey 0x2000 2) (.num mask) (Sparse.put (objKey 0x2F00 11) (.num i.val) t)
  let m := (m.setObj 0x2F00 11 (.num i.val)).setObj 0x2000 2 (.num mask)
  let m := m.modMgmt fun g => { g with store := g.store.map fun (k : Store) => { k with values := put k.values } }
  match m.mgmt.store with
  | some _ => match m.mgmt.newest with
    | some k => m.modCopy k fun c => { c with values := put c.values }
    | none => m
  | none => m.programCopy m.mgmt.older (put m.mgmt.storeVals)

/-- BOOT_CONFIRM (R373): trial firmware has run for boot_confirm_time. -/
def execBootConfirm (s : State) : Host.Outcome State Fault Refusal :=
  runs s fun m => if m.mgmtUp ∧ (m.fw.banks[m.fw.running]).st = .trial then m.confirm else m

end Sys2Proof.Machine
end

