-- ==== Sys2Proof/Machine/Read.lean ====
section
/-! DEFINITION. What a read of each dictionary object gives (the object tables of every chapter): status from the machine, settings
from the dictionary; the copies of DOMAIN objects (R348); quotes (R376 to R379). -/

namespace Sys2Proof.Machine

open Sys2Proof

/-- A signed number in 32 bits. -/
def i32 (x : Int) : Nat := (x % 2 ^ 32).toNat

/-- The context whose view a channel has: none on the operator's channel, which sees everything (R346). -/
def Mach.viewer (m : Mach) (ch : Channel) : Option CtxId :=
  if m.isOperator ch then none
  else match ch with
    | .can => none
    | .qp c => some c

/-- A viewer sees an entry of a context. -/
def seesCtx (v : Option CtxId) (c : CtxId) : Bool :=
  match v with
  | none => true
  | some d => decide (d = c)

/-- A bitmap of n bits as bytes. -/
def bitmap (n : Nat) (f : Nat → Bool) : Bytes := natLe ((n + 7) / 8) (((List.range n).map fun i => if f i then 2 ^ i else 0).sum)

/-! ### Identity, states, power (R4, R351, R352, R390, R393, R411) -/

/-- grade_code (R4). -/
def Grade.code : Grade → Nat
  | .a => 0x41 | .b => 0x42 | .n => 0x4E

/-- part_number (R4). -/
def Grade.part : Grade → String
  | .a => "VLS-CK1-A" | .b => "VLS-CK1-B" | .n => "VLS-CK1-N"

/-- module_state codes (R382). OFF has none and answers nothing. -/
def ModState.code : ModState → Nat
  | .active => 0 | .idle => 1 | .quiet => 2 | .standby => 3 | .mgmtOnly | .off => 4

/-- The fuse map (R352). -/
def Mach.fuseMap (m : Mach) (f : Fuses) : Bytes :=
  natLe 32 (f.rollback.toNat * 2 ^ 64 + m.grade.code * 2 ^ 40 + 0xA1 * 2 ^ 32 + b2n (decide (m.grade ≠ .n)) * 2 ^ 7 +
    b2n f.secureBoot * 2 ^ 6 + b2n f.ownerEnrolled * 2 ^ 5 + b2n (decide (m.grade = .b)) * 2 ^ 4)

/-- The thermal derate step of a die (R411). -/
def Mach.thermalStep (m : Mach) (d : Nat) : Nat := (throttled d).foldl (fun a i => max a (m.islands[i]).reqThermal.toNat) 0

/-- Numbers of the 0x1000 and 0x2000 to 0x2200 ranges that the machine holds. -/
def Mach.numStd (m : Mach) (idx sub : Nat) : Option Nat :=
  match idx, sub with
  | 0x1001, 0 => some m.errorReg
  | 0x1003, 0 => some m.mgmt.history.length
  | 0x1003, k => some ((m.mgmt.history.map BitVec.toNat).getD (k - 1) 0)
  | 0x1014, 0 => some (0x80 + m.mgmt.nodeId)
  | 0x1018, 1 => some 0xB5E
  | 0x1018, 2 => some (0x10000 + m.grade.code)
  | 0x1018, 3 => some (0xA1 * 2 ^ 16 + hdrBuild m.runningHeader % 2 ^ 16)
  | 0x1018, 4 => some Config.moduleSerial.toNat
  | 0x2000, 1 => some m.pwr.straps.toNat
  | 0x2000, 5 => some m.mgmt.nodeId
  | 0x2000, 6 => some m.mgmt.canRate
  | 0x2010, 2 => some m.pwr.lastCause
  | 0x2010, 3 => some m.pwr.modState.code
  | 0x2010, 5 => some (b2n m.pwr.transition.isSome)
  | 0x2010, 7 => some m.pwr.dpResetCount.toNat
  | 0x2100, 2 => some m.grade.code
  | 0x2100, 4 => some m.grade.cols
  | 0x2100, 5 => some (b2n (decide (m.grade ≠ .n)))
  | 0x2100, 6 => some Config.moduleSerial.toNat
  | 0x2100, 7 => some Config.manufactureDate.toNat
  | 0x2200, 1 => some m.pwr.inputW
  | 0x2200, 2 => some (m.pwr.energyMj / 1000)
  | 0x2200, 4 => some (b2n (m.islands.toList.any fun x => decide (x.reqPower ≠ 0)))
  | 0x2200, 6 => some 95000
  | 0x2200, 7 => some 105000
  | 0x2200, 8 => some 40000
  | 0x2200, 9 => some m.pwr.tripCount.toNat
  | 0x2200, 10 => some m.pwr.inputFaults.toNat
  | _, _ => none

/-! ### Sensors and islands (R21, R354) -/

/-- Sensor status codes (R354). -/
def SensorStatus.code : SensorStatus → Nat
  | .ok => 0 | .stale => 1 | .failed => 2 | .absent => 3

/-- Island state codes (R17). -/
def IslandState.code : IslandState → Nat
  | .run => 0 | .clockGated => 1 | .powerGated => 2 | .reset => 3

/-- Nominal clock of an island in MHz (R14). -/
def Mach.nominalMhz (m : Mach) (i : IslandId) : Nat :=
  let n := i.val
  if n < 92 then (if n % 23 = 18 then 500 else 1000)
  else if 102 ≤ n ∧ n < 126 then (if m.mem.rateMts = 8800 then 1100 else 1600)
  else if n = 130 ∨ n = 131 then 1000
  else if n = 133 then 800
  else 1250

/-- A clock at a derate step: 100 %, 87.5 %, 75 %, 50 % (R21). -/
def derated (mhz step : Nat) : Nat := mhz * [8, 7, 6, 4].getD step 8 / 8

/-- Sensor and island numbers by sub-index. -/
def Mach.numSub (m : Mach) (idx sub : Nat) : Option Nat :=
  let x := m.sensors[(Fin.ofNat 160 (sub - 1) : SensorId)]
  let i : IslandId := Fin.ofNat 134 (sub - 1)
  let y := m.islands[i]
  match idx with
  | 0x2301 => some (i32 x.value)
  | 0x2302 => some x.status.code
  | 0x2303 => some (i32 (x.peak.getD 0))
  | 0x2304 => some (i32 ((m.dieTemp (sub - 1)).getD 0))
  | 0x2401 => some y.st.code
  | 0x2402 => some (derated (m.nominalMhz i) y.effective.toNat)
  | 0x2403 => some y.reqOp.toNat
  | 0x2404 => some y.wanted.toNat
  | 0x2405 => some (y.reqOp.toNat + y.reqGoose.toNat * 4 + y.reqThermal.toNat * 16 + y.reqPower.toNat * 64)
  | 0x3001 => some y.lastPass
  | _ => none

/-! ### Fabric and host port (R240, R271 to R273, R292, R340) -/

/-- Fold state codes (R272). -/
def FoldState.code : FoldState → Nat
  | .unplanned => 0 | .forming => 1 | .ready => 2 | .deviated => 3 | .accepted => 4

/-- Numbers of a fold slot. -/
def Fold.num (f : Fold) (sub : Nat) : Option Nat :=
  match sub with
  | 7 => some f.generation.toNat
  | 8 => some f.st.code
  | 9 => some f.deviation.toNat
  | 0x12 => some (b2n f.fenced)
  | _ => none

/-- Numbers of a link; what it knows of its neighbour lies in the training content it received (R230). -/
def Link.num (k : Link) (sub : Nat) : Option Nat :=
  let n := k.nbr.toNat
  match sub with
  | 1 => some k.st.code
  | 4 => some k.rate
  | 5 => some k.heldReason
  | 6 => some (bits n 239 176)
  | 7 => some (bits n 175 170)
  | 8 => some (bits n 169 162)
  | 9 => some (bits n 145 128)
  | 0x0A => some (bits n 161 154)
  | 0x0B => some (bits n 153 146)
  | 0x0C => some (bits n 127 112)
  | 0x0D => some k.level
  | 0x1A => some (k.prbsErrors[0]).toNat
  | 0x1B => some (k.prbsErrors[1]).toNat
  | 0x1C => some (k.prbsErrors[2]).toNat
  | 0x1D => some (k.prbsErrors[3]).toNat
  | 0x1E => some k.prbsLocked.toNat
  | _ => none

/-- Numbers of a bundle; live_links names the members that are live (R252). -/
def Mach.bundleNum (m : Mach) (b : Bundle) (sub : Nat) : Option Nat :=
  match sub with
  | 0x10 => some (BundleSt.code b.st)
  | 0x11 => some ((allLinks.map fun l => if b.members.contains l && (m.links[l]).live then 2 ^ l.val else 0).sum)
  | _ => none

/-- Numbers of the 0x2500 to 0x27FF ranges that the machine holds. -/
def Mach.numNet (m : Mach) (idx sub : Nat) : Option Nat :=
  if idx = 0x2500 then (if sub = 6 then some (b2n m.net.rebuilding) else if sub = 7 then some m.net.generation.toNat else none)
  else if 0x2501 ≤ idx ∧ idx < 0x2505 then (m.net.folds[(Fin.ofNat 4 (idx - 0x2501) : FoldSlot)]).num sub
  else if 0x2600 ≤ idx ∧ idx < 0x2624 then (m.links[(Fin.ofNat 36 (idx - 0x2600) : LinkId)]).num sub
  else if 0x2640 ≤ idx ∧ idx < 0x2650 then m.bundleNum m.net.bundles[(Fin.ofNat 16 (idx - 0x2640) : BundleId)] sub
  else if idx = 0x2700 then (if sub = 2 then some m.host.mode else if sub = 5 then some Config.macAddress.toNat else none)
  else if 0x2720 ≤ idx ∧ idx < 0x27A0 then
    let x := m.ctxs[(Fin.ofNat 4 ((idx - 0x2720) / 32) : CtxId)]
    if sub = 1 then some (x.qps[(Fin.ofNat 18 ((idx - 0x2720) % 32) : QpNo)]).st.code
    else if sub = 0x13 then some x.consumed.toNat
    else none
  else if 0x27A0 ≤ idx ∧ idx < 0x27E0 then
    let x := m.ctxs[(Fin.ofNat 4 ((idx - 0x27A0) / 16) : CtxId)]
    if sub = 6 then some (((x.mws[(Fin.ofNat 16 (idx - 0x27A0) : MwNo)]).key.map BitVec.toNat).getD 0) else none
  else none

/-! ### Contexts and memory (R87, R114, R145, R158) -/

/-- A slot of an engine of a context has started and not committed; the Drover's barrier is no SHUTTLE slot. -/
def Mach.engStarted (m : Mach) (c : CtxId) (e : Eng) : Bool :=
  match e with
  | .move => m.mv.jobs.any fun j => decide (j.c = c)
  | .array => m.arrays.any fun j => decide (j.c = c)
  | .vector => m.vecs.any fun j => decide (j.c = c)
  | .shuttle => m.shut.colls.any fun k => decide (k.key.ctx = c) && !k.drover
  | .vault => m.drover.jobs.any fun j => decide (j.c = c)
  | .audit => m.audits.any fun j => decide (j.c = c)
  | .conf => false

/-- A started slot of an engine of a stopping context still runs: a take-up pair held under R148 does not. -/
def Mach.engRunning (m : Mach) (c : CtxId) (e : Eng) : Bool :=
  match e with
  | .array => m.arrays.any fun j => decide (j.c = c) && !(j.suspended && !m.arrayMayRun j)
  | .vector => m.vecs.any fun j => decide (j.c = c) && !m.vecStranded j
  | e => m.engStarted c e

/-- engine_state (R145): 0 IDLE, 1 RUNNING, 2 HALTED, 3 FAULTED. -/
def Mach.engState (m : Mach) (c : CtxId) (e : Eng) : Nat :=
  let x := m.ctxs[c]
  match x.st with
  | .disabled | .resetting => 0
  | .enabled => if m.engStarted c e || decide (x.queues[e.num] ≠ []) then 1 else 0
  | .halting | .halted | .faulted =>
    if m.engRunning c e then 1
    else if decide (x.faultEng = e.num.val) && (x.pendingFault.isSome || decide (x.st = .faulted)) then 3
    else 2

/-- Numbers of a context's objects at offset k. -/
def Mach.numCtx (m : Mach) (c : CtxId) (k sub : Nat) : Option Nat :=
  let x := m.ctxs[c]
  match k, sub with
  | 0, 1 => some x.st.code
  | 0, 3 => some x.lastCommitted.toNat
  | 2, 1 => some x.seed.toNat
  | 2, 2 => some x.step.toNat
  | 4, 4 => some (m.dramWindow c).2
  | 9, n => (engOf (n - 1)).map fun e => m.engState c e
  | 10, 8 => some ((x.cmdQ.map List.length).sum)
  | 10, n => (engOf (n - 1)).map fun e => (x.queues[e.num]).length
  | _, _ => none

/-- Numbers of the 0x2900 to 0x29FF ranges that the machine holds. -/
def Mach.numMem (m : Mach) (idx sub : Nat) : Option Nat :=
  if idx < 0x2918 then
    let k := m.mem.chans[(Fin.ofNat 24 (idx - 0x2900) : DramChan)]
    match sub with
    | 1 => some (b2n k.present)
    | 2 => some k.sizeGib
    | 3 => some k.ratedMts
    | 4 => some k.st
    | 5 => some k.ceCount.toNat
    | 6 => some k.ueCount.toNat
    | 7 => some k.lastError
    | _ => some k.failMap.toNat
  else match idx, sub with
  | 0x2980, 1 => some m.mem.dramState
  | 0x2980, 2 => some (m.dramCap / 2 ^ 30)
  | 0x2980, 3 => some m.mem.rateMts
  | 0x2981, 2 => some m.mem.spadCe.toNat
  | 0x2981, 3 => some m.mem.spadUe.toNat
  | 0x2982, 2 => some (m.pools.toList.filter fun p => decide (p.memory ≠ 0)).length
  | _, _ =>
    if idx < 0x29C0 then none
    else
      let p := m.pools[(Fin.ofNat 64 (idx - 0x29C0) : PoolId)]
      if sub = 5 then some (p.freeNow - p.setAside)
      else if sub = 6 then some p.lowWater
      else if sub = 7 then some p.quarantined.length
      else if 32 ≤ sub ∧ sub < 39 then some (p.held (Fin.ofNat 7 (sub - 32)))
      else none

/-! ### Vault, checkpoint, Shuttle, counters, log, firmware, Goose (R219, R317, R339, R362, R365, R381) -/

/-- Snapshot state codes (R317). -/
def SnapSt.code : SnapSt → Nat
  | .free => 0 | .frozen => 1 | .held => 2 | .buddied => 3 | .committed => 4 | .failed => 5

/-- Rollback state codes (R317). -/
def RollSt.code : RollSt → Nat
  | .none => 0 | .running => 1 | .done => 2 | .failed => 3

/-- Mean P/E cycles of the vault's blocks. How many blocks there are is not given (log 7). -/
def Mach.peAvg (m : Mach) : Nat := leNat (Config.layout 0x2A00 4 (m.drover.erases.flatMap fun e => [e.1, e.2])) % 2 ^ 16

/-- Numbers of the 0x2A00 to 0x2CFF ranges that the machine holds. -/
def Mach.numDrover (m : Mach) (idx sub : Nat) : Option Nat :=
  let slot := m.drover.slots[(Fin.ofNat 2 idx : Fin 2)]
  let buddy := m.drover.buddies[(Fin.ofNat 2 idx : Fin 2)]
  match idx, sub with
  | 0x2A00, 1 => some (if m.grade = .n then 0xFF else m.drover.vault)
  | 0x2A00, 2 => some (m.drover.freeKib / 2 ^ 20)
  | 0x2A00, 4 => some m.peAvg
  | 0x2A00, 5 => some (m.peAvg * 1000 / 3000)
  | 0x2A00, 7 => some m.drover.rebuildPermille
  | 0x2A00, 8 => some (b2n (m.pwr.straps.getLsbD 15))
  | 0x2B00, 2 => some m.droverBase
  | 0x2B04, 1 | 0x2B05, 1 => some slot.st.code
  | 0x2B04, 2 | 0x2B05, 2 => some slot.step.toNat
  | 0x2B04, 3 | 0x2B05, 3 => some slot.copied
  | 0x2B06, 1 | 0x2B07, 1 => some buddy.step.toNat
  | 0x2B06, 2 | 0x2B07, 2 => some buddy.coords.toNat
  | 0x2C00, 2 => some m.openColls.length
  | 0x2C00, 3 => some m.shut.groups.length
  | _, _ =>
    if 0x2B10 ≤ idx ∧ idx < 0x2B14 then
      let x := m.drover.ctxs[(Fin.ofNat 4 (idx - 0x2B10) : CtxId)]
      if sub = 6 then some x.buddy else if sub = 0x0C then some x.roll.code else none
    else none

/-- Counter network states' codes (R362). -/
def NetState.code : NetState → Nat
  | .run => 0 | .stopped => 1 | .frozen => 2

/-- Numbers of one counter. -/
def Mach.numCounter (m : Mach) (idx : Nat) (k : CounterId) : Option Nat :=
  let x := m.counters[k]
  if idx < 0x2D30 then some x.source.toNat
  else if idx < 0x2D40 then some x.filter.toNat
  else if idx < 0x2D50 then some x.owner.toNat
  else some (m.counterValue k)

/-- The records of the source a channel has selected (R365). -/
def Mach.logRecords (m : Mach) (ch : Channel) : List LogRec :=
  if (m.mgmt.chans[chanNum ch]).logSource = 1 then m.log.mirror else m.log.ring

/-- Bank states' codes (R381). -/
def BankSt.code : BankSt → Nat
  | .empty => 0 | .invalid => 1 | .valid => 2 | .staged => 3 | .trial => 4 | .confirmed => 5

/-- Update session states' codes (R381). -/
def FwSession.code : FwSession → Nat
  | .idle => 0 | .erasing => 1 | .receiving => 2 | .verifying => 3 | .valid => 4 | .staged => 5

/-- Numbers of the 0x2D00 to 0x3001 ranges that the machine holds. -/
def Mach.numTop (m : Mach) (f : Fuses) (ch : Channel) (idx sub : Nat) : Option Nat :=
  match idx, sub with
  | 0x2D00, 2 => some m.netState.code
  | 0x2E00, 1 => some m.lastLogSeq.toNat
  | 0x2E00, 2 => some (((m.logRecords ch).head?.map fun r => r.seq.toNat).getD 0)
  | 0x2E00, 3 => some (m.mgmt.chans[chanNum ch]).logFrom.toNat
  | 0x2E00, 4 => some (m.mgmt.chans[chanNum ch]).logSource.toNat
  | 0x2E00, 5 => some (if m.grade = .n then 0xFF else if m.log.unmirrored = [] then 0 else 1)
  | 0x2E00, 6 => some m.pwr.bootCount.toNat
  | 0x2E00, 7 => some m.mgmt.restarts.toNat
  | 0x2F00, 1 => some Config.romVersion.toNat
  | 0x2F00, 2 => some m.fw.running.val
  | 0x2F00, 3 => some (m.fw.banks[(0 : Fin 2)]).st.code
  | 0x2F00, 4 => some (m.fw.banks[(1 : Fin 2)]).st.code
  | 0x2F00, 7 => some (m.fw.banks[(0 : Fin 2)]).version
  | 0x2F00, 8 => some (m.fw.banks[(1 : Fin 2)]).version
  | 0x2F00, 9 => some m.fw.attempts
  | 0x2F00, 10 => some m.fw.flags.toNat
  | 0x2F01, 2 => some m.fw.session.code
  | 0x2F01, 4 => some m.fw.received
  | 0x2F01, 5 => some m.fw.status
  | 0x2F02, 5 => some f.rollbackCount
  | 0x3000, 5 => some (b2n (decide (m.goose.cause ≠ 0)))
  | 0x3000, 6 => some m.goose.cause.toNat
  | 0x3000, 9 => some m.goose.tilesRun
  | _, _ => none

/-- The number of an object that the machine holds outside the dictionary. -/
def Mach.status (m : Mach) (f : Fuses) (ch : Channel) (idx sub : Nat) : Option Nat :=
  match counterOf idx sub with
  | some k => m.numCounter idx k
  | none =>
    if idx < 0x2300 then m.numStd idx sub
    else if idx < 0x2500 ∨ idx = 0x3001 then m.numSub idx sub
    else if idx < 0x2800 then m.numNet idx sub
    else if idx < 0x2900 then m.numCtx (Fin.ofNat 4 (idx / 16)) (idx % 16) sub
    else if idx < 0x2A00 then m.numMem idx sub
    else if idx < 0x2D00 then m.numDrover idx sub
    else m.numTop f ch idx sub

/-! ### DOMAIN objects -/

/-- The digest of a bank as an object: 32 bytes, zeros where no image has been verified or run. -/
def Bank.digestBytes (b : Bank) : Bytes := (b.digest ++ List.replicate 32 0).take 32

/-- Entries of the group table that a viewer sees (R219). -/
def Mach.groupTable (m : Mach) (v : Option CtxId) : Bytes :=
  (m.shut.groups.filter fun g => seesCtx v g.ctx).flatMap fun g =>
    Config.layout 0x2C01 0 [g.ctx.val, g.id, g.epoch.toNat, g.level, g.ring.length, (extentsOf g.ring []).1, g.wire, g.expected.toNat]

/-- Members with a nonzero count, of the contexts a viewer sees (R218, R219). -/
def Mach.bellwetherTable (m : Mach) (v : Option CtxId) : Bytes :=
  (allCtx.filter fun c => seesCtx v c).flatMap fun c =>
    let l := (m.shut.named[c]).filter fun e => decide (e.1 ≠ nobody)
    l.dedup.flatMap fun e =>
      Config.layout 0x2C02 0 [c.val, e.2, e.1 % 2 ^ 14, e.1 / 2 ^ 14, l.count e, b2n (m.shut.suspects.contains (c.val, e.2, e.1))]

/-- The catalog of the vault (R310, R317). -/
def Mach.catalogBytes (m : Mach) : Bytes :=
  m.drover.gens.flatMap fun g =>
    let mine := m.drover.shards.filter fun x => decide (x.fold = g.fold) && decide (x.generation = g.generation)
    Config.layout 0x2A01 0 [g.fold, g.generation.toNat, g.step.toNat, g.st, mine.length, (mine.filter fun x => decide (x.kind ≠ 0)).length]

/-- Up to 63 records from log_read_from that a channel may see (R365). -/
def Mach.logBytes (m : Mach) (ch : Channel) : Bytes :=
  let from_ := (m.mgmt.chans[chanNum ch]).logFrom
  let seen := fun (r : LogRec) => match m.viewer ch, r.ctx with
    | some c, some d => decide (c = d)
    | _, _ => true
  (((m.logRecords ch).filter fun r => (decide (r.seq = from_) || seqBefore (2 ^ 31 - 1) from_ r.seq) && seen r).take 63).flatMap LogRec.bytes

/-- The 256 counters as a channel may see them (R362). -/
def Mach.counterBytes (m : Mach) (ch : Channel) : Bytes :=
  counterBlock (fun k => m.counterValue k) fun k => match m.viewer ch with
    | none => true
    | some c => m.counterShown k c

/-- The bytes of a DOMAIN or string object that the machine holds outside the dictionary. -/
def Mach.domainOf (m : Mach) (f : Fuses) (ch : Channel) (idx sub : Nat) : Option Bytes :=
  match idx, sub with
  | 0x2100, 1 => some (ascii m.grade.part)
  | 0x2100, 3 => some (ascii "A1")
  | 0x2100, 8 => some (m.fuseMap f)
  | 0x2100, 9 => some ((List.range 36).map fun i => BitVec.ofNat 8 (Config.factoryRowRepairs i % 4))
  | 0x2100, 10 => some (loomIslands.map fun i => BitVec.ofNat 8 (m.islands[i]).grownRows.length)
  | 0x2200, 5 => some ((List.range 5).map fun d => BitVec.ofNat 8 (m.thermalStep d))
  | 0x2200, 11 => some ((List.range 256).map Config.trayFru)
  | 0x2305, 0 => some ((fins 159).flatMap fun n => natLe 4 (i32 (m.sensors[n]).value))
  | 0x2508, 0 => some ((List.range 1572864).map fun i => Sparse.get 0x0C i m.net.routes)
  | 0x2509, 0 => some ((List.range 306).flatMap fun i => natLe 2 (Sparse.get (0 : BitVec 16) i m.net.turns).toNat)
  | 0x2A00, 6 => some (bitmap 80 fun i => m.drover.dieFail.getLsbD i)
  | 0x2A01, 0 => some m.catalogBytes
  | 0x2C01, 0 => some (m.groupTable (m.viewer ch))
  | 0x2C02, 0 => some (m.bellwetherTable (m.viewer ch))
  | 0x2D00, 3 => some (bitmap 256 fun i => (m.counters[(Fin.ofNat 256 i : CounterId)]).overflow)
  | 0x2D01, 0 => some (Config.layout 0x2D01 0 [])
  | 0x2D60, 0 => some (m.counterBytes ch)
  | 0x2E01, 0 => some (m.logBytes ch)
  | 0x2F00, 5 => some (m.fw.banks[(0 : Fin 2)]).digestBytes
  | 0x2F00, 6 => some (m.fw.banks[(1 : Fin 2)]).digestBytes
  | 0x2F02, 1 => some vendorHash
  | 0x2F02, 2 => some (if f.ownerEnrolled then f.ownerHash else List.replicate 32 0)
  | 0x2F03, 1 => some Config.identityPublicKey
  | 0x2F03, 2 => some Config.identityCertificate
  | 0x3000, 10 => some (bitmap 134 fun i => (m.islands[island i]).condemned)
  | _, _ =>
    if 0x2501 ≤ idx ∧ idx < 0x2505 ∧ sub = 15 then some (m.net.folds[(Fin.ofNat 4 (idx - 0x2501) : FoldSlot)]).homes
    else if 0x2600 ≤ idx ∧ idx < 0x2624 ∧ sub = 19 then
      let e := (m.links[(Fin.ofNat 36 (idx - 0x2600) : LinkId)]).eqStored
      some (if e = [] then [] else Config.layout 0x2613 0 (e.flatMap fun e => e.1 :: e.2))
    else if 0x2800 ≤ idx ∧ idx < 0x2840 ∧ idx % 16 = 7 then some (m.ctxs[(Fin.ofNat 4 (idx / 16) : CtxId)]).faultRec
    else if 0x2800 ≤ idx ∧ idx < 0x2840 ∧ idx % 16 = 8 then some (m.ctxs[(Fin.ofNat 4 (idx / 16) : CtxId)]).heddleDump
    else none

/-- An object of an island that is not powered: in MGMT_ONLY, one that the datapath itself keeps (R386). -/
def Mach.objectOff (m : Mach) (idx : Nat) (r : ObjRow) : Bool :=
  decide (m.pwr.modState = .mgmtOnly) && decide (m.pwr.resetting ≠ some .dpKept) && decide (m.pwr.resetting ≠ some .dpLost) &&
    decide (r.acc = .ro) && decide (r.kept ≠ .p) && decide (0x2600 ≤ idx) && decide (idx < 0x2D00)

/-- The machine that an object is read from: one whose island is not powered reads its default, what it holds after a cold reset
(R386). -/
def Mach.readFrom (m : Mach) (idx : Nat) (r : ObjRow) : Mach :=
  if m.objectOff idx r then { Mach.reset with grade := m.grade, pwr := m.pwr, mgmt := m.mgmt } else m

/-- The data of an object as a channel reads it. -/
def Mach.readObj (m : Mach) (f : Fuses) (ch : Channel) (idx sub : Nat) (r : ObjRow) : Bytes :=
  let m := m.readFrom idx r
  match r.ty with
  | .domain _ | .text => (m.domainOf f ch idx sub).getD (m.obj idx sub).toBytes
  | t => t.data (match m.status f ch idx sub with
    | some n => .num n
    | none => m.obj idx sub)

/-! ### Quotes (R376 to R379) -/

/-- The P objects in ascending index and sub-index. -/
def storedObjects : List (Nat × Nat × ObjRow) :=
  (List.range 0x2100).flatMap fun i =>
    let idx := 0x1000 + i
    if idxExists idx then
      (List.range 256).filterMap fun sub => match objRow? idx sub with
        | some r => if r.kept = .p then some (idx, sub, r) else none
        | none => none
    else []

/-- config_digest (R378): read as the operator's channel reads them. -/
def Mach.configDigest (m : Mach) (f : Fuses) : Bytes :=
  sha3 (storedObjects.flatMap fun e =>
    let b := m.readObj f .can e.1 e.2.1 e.2.2
    natLe 2 e.1 ++ natLe 1 e.2.1 ++ natLe 4 b.length ++ b)

/-- Does a bank hold an image whose digest a quote tells (R377)? -/
def BankSt.quoted (s : BankSt) : Bool := [BankSt.valid, .staged, .confirmed].contains s

/-- The 384-byte body of a quote (R377). -/
def Mach.quoteBody (m : Mach) (f : Fuses) (nonce : Bytes) : Bytes :=
  let other := m.fw.banks[m.fw.inactive]
  [0x51, 0x01] ++ List.replicate 125 0 ++ [BitVec.ofNat 8 m.fw.flags.toNat] ++ natLe 2 m.pwr.straps.toNat ++
    natLe 1 m.fw.running.val ++ natLe 1 f.rollbackCount ++ natLe 4 (hdrVersion m.runningHeader) ++ natLe 4 Config.romVersion.toNat ++
    natLe 4 m.pwr.bootCount.toNat ++ natLe 8 m.now ++ natLe 8 Config.moduleSerial.toNat ++ m.fuseMap f ++ m.configDigest f ++
    (if f.ownerEnrolled then f.ownerHash else List.replicate 32 0) ++ vendorHash ++
    (if other.st.quoted then other.digestBytes else List.replicate 32 0) ++ (m.fw.banks[m.fw.running]).digestBytes ++ nonce

/-- Change what the controller holds for a channel. -/
def Mach.modChan (m : Mach) (ch : Channel) (f : ChanState → ChanState) : Mach :=
  m.modMgmt fun g => { g with chans := Vec.upd g.chans (chanNum ch) f }

/-- A read of quote at offset 0: the body is assembled and signed, and the nonce used up (R379). -/
def Mach.readQuote (m : Mach) (f : Fuses) (ch : Channel) : Except Nat (Mach × Bytes) :=
  match (m.mgmt.chans[chanNum ch]).nonce with
  | none => .error abState
  | some n =>
    let body := m.quoteBody f n
    let q := body ++ Config.mldsaSign body (ascii "VLS-QUOTE")
    .ok (m.modChan ch fun k => { k with nonce := none, quote := q }, q)

/-! ### Reads (R347, R348) -/

/-- A read from offset 0 (R347, R348): a DOMAIN is copied for the channel. -/
def Mach.readWhole (m : Mach) (f : Fuses) (ch : Channel) (idx sub : Nat) : Except Nat (Mach × Bytes) :=
  match m.checkRead ch idx sub with
  | .error e => .error e
  | .ok r =>
    let got := if idx = 0x2F03 ∧ sub = 4 then m.readQuote f ch else .ok (m, m.readObj f ch idx sub r)
    match r.ty, got with
    | .domain _, .ok (m, b) => .ok (m.modChan ch fun k => { k with copy := some ⟨idx, sub, b⟩ }, b)
    | _, got => got

/-- A read from a higher offset gives bytes of the copy that the channel holds (R348). Only a DOMAIN has offsets (R290). -/
def Mach.readCopy (m : Mach) (ch : Channel) (idx sub offset : Nat) : Except Nat (Mach × Bytes) :=
  match m.checkRead ch idx sub with
  | .error e => .error e
  | .ok r => match r.ty, (m.mgmt.chans[chanNum ch]).copy with
    | .domain _, some k => if k.index = idx ∧ k.sub = sub then .ok (m, k.bytes.drop offset) else .error abState
    | .domain _, none => .error abState
    | _, _ => .error abIncompatible

/-- The answer to a read. -/
def Mach.answerRead (m : Mach) (ch : Channel) (idx sub : Nat) (r : Except Nat (Mach × Bytes)) : Mach :=
  match r with
  | .error e => m.refused (fun e => .readAbort ch idx sub (BitVec.ofNat 32 e)) e
  | .ok (m, b) => m.reply (.readOk ch idx sub b)

/-- QUOTE (R379). -/
def execQuote (ch : Channel) (s : State) : Host.Outcome State Fault Refusal :=
  runs s fun m => if m.chanUp ch then m.answerRead ch 0x2F03 4 (m.readWhole s.fuses ch 0x2F03 4) else m

/-- DOMAIN_COPY_EXPIRY (R348): 1 s without a read at a higher offset. -/
def execDomainCopyExpiry (ch : Channel) (s : State) : Host.Outcome State Fault Refusal :=
  runs s fun m => m.modChan ch fun k => { k with copy := none }

end Sys2Proof.Machine
end

