-- ==== Sys2Proof/Machine/Dictionary.lean ====
section
/-! DEFINITION. The writer of every object of the dictionary, and the requests of both entrances: CAN FD and the management QPs
(R290, R343 to R348, R355). -/

namespace Sys2Proof.Machine

open Sys2Proof

/-! ### Writers of objects that no row of the table names -/

/-- A number in a range. -/
def wrRange (idx sub lo hi : Nat) : Writer := fun m _ v =>
  .guard (decide (v.toNum < lo) || decide (hi < v.toNum)) abRange (.ok (m.setObj idx sub v))

/-- A number that is a multiple of another. -/
def wrAligned (idx sub k : Nat) : Writer := fun m _ v => .guard (decide (v.toNum % k ≠ 0)) abRange (.ok (m.setObj idx sub v))

/-- error_history_count: 0 clears the history (R351). -/
def wrHistory : Writer := fun m _ v => .guard (decide (v.toNum ≠ 0)) abRange (.ok (m.modMgmt fun g => { g with history := [] }))

/-- strap_override_mask: bits 9, 11 and 13 (R392). -/
def wrOverride : Writer := fun m _ v =>
  .guard (decide (v.toNum &&& 0xD5FF ≠ 0)) abRange (.ok (m.setObj 0x2000 2 v))

/-- power_cap_w: 1,500 W to the grade maximum (R401). -/
def wrPowerCap : Writer := fun m _ v =>
  .guard (decide (v.toNum < 1500) || decide (m.grade.maxPower < v.toNum)) abRange (.ok (m.setObj 0x2200 3 v))

/-- fold_id: not the reserved 0xFFFF, nor the nonzero ID of another slot (R265). -/
def wrFoldId (k : FoldSlot) : Writer := fun m _ v =>
  let n := v.toNum
  let taken := allCtx.any fun j => decide (j ≠ k) && decide (n ≠ 0) && decide (m.num (0x2501 + j.val) 1 = n)
  .guard (taken || decide (n = 0xFFFF)) abRange (.ok (m.setObj (0x2501 + k.val) 1 v))

/-- rank_map: whole entries of 8 bytes with their reserved bits zero (R265). -/
def wrRankMap (k : FoldSlot) : Writer := fun m _ v =>
  let b := v.toBytes
  let bad := (List.range (b.length / 8)).any fun r => let e := getLe b (8 * r) 8
    decide (bits e 63 48 ≠ 0) || decide (bits e 30 18 ≠ 0)
  .guard (bad || decide (b.length % 8 ≠ 0)) abRange (.ok (m.setObj (0x2501 + k.val) 5 v))

/-- seed and step: in DISABLED or HALTED, or with every engine IDLE and the command queue empty (R158). -/
def wrSeedStep (c : CtxId) (sub : Nat) : Writer := fun m _ v =>
  .guard (!m.windowFree c) abState
    (.ok (m.modCtx c fun x => if sub = 1 then { x with seed := BitVec.ofNat 64 v.toNum } else { x with step := BitVec.ofNat 64 v.toNum }))

/-- Two regions overlap, or carry the same tag (R294). -/
def regionsClash : List Region → Bool
  | [] => false
  | r :: rest =>
    rest.any (fun q => decide (q.tag = r.tag) || crosses (r.addr, r.addr + r.patches * patchBytes) (q.addr, q.addr + q.patches * patchBytes)) ||
      regionsClash rest

/-- An entry of a region table breaks its layout (R294). -/
def regionBad (n : Nat) : Bool :=
  let r := regionOf n
  bit n 0 && (decide (r.patches = 0) || decide (r.addr % patchBytes ≠ 0) || decide (r.tag = 0xFFFFFFFF))

/-- A region table with the reserved bits [19:1] of its entries zero, as it reads back (R6, R294). -/
def regionClear (b : Bytes) : Bytes := (tableEntries b).flatMap fun n => natLe 32 (n - bits n 19 1 * 2)

/-- The writer of region_table (R294). -/
def wrRegions (c : CtxId) : Writer := fun m _ v =>
  let b := regionClear ((v.toBytes ++ List.replicate 1024 0).take 1024)
  let rs := regionsOf b
  let m' := m.setObj (ckptIdx c) 9 (.bytes b)
  let all := ((allCtx.filter m'.ckptOn).map fun d => patchCount (m'.regions d)).sum
  let bad := (tableEntries b).any regionBad || regionsClash rs ||
    (rs.any fun r => !m.dramInWindow c r.addr (r.patches * patchBytes)) || decide (m.slotBytes < (all + 1) * patchBytes)
  .guard bad abRange (.guard (!m.windowFree c) abState (.ok m'))

/-- Bytes of the memory area a pool lies in: hub SRAM 13.75 MiB, a die's pool region (R107). -/
def Mach.poolArea (m : Mach) (memory : Nat) : Nat := if memory = 1 then 14417920 else m.mem.spadPool * 2 ^ 20

/-- A pool's definition as the objects stand: memory, base, end. -/
def Mach.poolObj (m : Mach) (p : PoolId) : Nat × Nat × Nat :=
  let i := 0x29C0 + p.val
  let base := m.num i 4
  (m.num i 1, base, base + m.num i 3 * 2 ^ m.num i 2)

/-- A pool's definition breaks R107: a buffer size outside 4 KiB to 1 MiB, out of its area, misaligned, or over another pool. -/
def Mach.poolBad (m : Mach) (p : PoolId) : Bool :=
  let d := m.poolObj p
  let k := m.num (0x29C0 + p.val) 2
  decide (d.1 ≠ 0) && (decide (k < 12) || decide (20 < k) || decide (m.poolArea d.1 < d.2.2) || decide (d.2.1 % 2 ^ k ≠ 0) ||
    (fins 63).any fun q => decide (q ≠ p) && decide ((m.poolObj q).1 = d.1) && crosses d.2 (m.poolObj q).2)

/-- The writer of a pool's definition (R107). -/
def wrPool (p : PoolId) (sub : Nat) : Writer := fun m _ v =>
  let n := v.toNum
  let m' := m.setObj (0x29C0 + p.val) sub v
  .guard ((decide (sub = 1) && decide (5 < n)) || (decide (sub = 2) && (decide (n < 12) || decide (20 < n))) || m'.poolBad p) abRange (.ok m')

/-- log_read_from and log_source, held per channel (R365). -/
def wrLogView (sub : Nat) : Writer := fun m ch v =>
  let n := v.toNum
  .guard (decide (sub = 4) && decide (1 < n)) abRange
    (.ok (m.modChan ch fun k => if sub = 3 then { k with logFrom := BitVec.ofNat 32 n } else { k with logSource := BitVec.ofNat 8 n }))

/-- quote_nonce: 32 bytes, held per channel (R379). -/
def wrNonce : Writer := fun m ch v =>
  .guard (decide (v.toBytes.length ≠ 32)) abLength (.ok (m.modChan ch fun k => { k with nonce := some v.toBytes }))

/-! ### TPDO mappings (R351) -/

/-- Number of entries in a TPDO's mapping, and their total in bits. -/
def Mach.mapEntries (m : Mach) (n : Nat) : List Nat := (List.range (m.num (0x1A00 + n) 0)).map fun k => m.num (0x1A00 + n) (k + 1)
def Mach.mapBits (m : Mach) (n : Nat) : Nat := ((m.mapEntries n).map fun e => e % 256).sum

/-- DOMAINs of which a tenant reads only a part, or nothing (R346). -/
def tenantRestricted (idx : Nat) (r : ObjRow) : Bool :=
  match r.ty with
  | .domain _ => [Own.op, .ctx].contains r.own || [0x2C01, 0x2C02, 0x2D60, 0x2E01].contains idx
  | _ => false

/-- An entry names no object, or a tenant-restricted DOMAIN. -/
def mapBad (e : Nat) : Bool :=
  match objRow? (e / 65536) (e / 256 % 256) with
  | none => decide (e ≠ 0)
  | some r => tenantRestricted (e / 65536) r

/-- The writer of a mapping object: at most 64 entries and 64 bytes, and the TPDO disabled. -/
def wrMapping (n sub : Nat) : Writer := fun m _ v =>
  let m' := m.setObj (0x1A00 + n) sub v
  .guard ((decide (sub = 0) && decide (64 < v.toNum)) || (decide (sub ≠ 0) && mapBad v.toNum) || decide (512 < m'.mapBits n)) abRange
    (.guard (!bit (m.num (0x1800 + n) 1) 31) abState (.ok m'))

/-! ### The table of writers -/

/-- Writers of a fold slot's objects (R265, R266, R269, R323). -/
def foldWriter (k : FoldSlot) (sub : Nat) : Writer :=
  match sub with
  | 1 => wrFoldId k
  | 5 => wrRankMap k
  | 6 => wrRankMapCommit k
  | 10 => wrFoldAccept k
  | 16 => wrFoldFence k
  | _ => wrStore (0x2501 + k.val) sub

/-- Writers of a link's objects (R240). -/
def linkWriter (l : LinkId) (sub : Nat) : Writer :=
  match sub with
  | 2 => wrLinkEnable l
  | 3 => wrRange (0x2600 + l.val) 3 0 3
  | 0x10 => wrRange (0x2600 + l.val) 0x10 0 16
  | 0x11 => wrRange (0x2600 + l.val) 0x11 0 3
  | 0x18 => wrTestMode l
  | 0x19 => wrInject l
  | 0x21 => wrPowerRequest l
  | 0x22 => wrLinkReset l
  | _ => wrStore (0x2600 + l.val) sub

/-- Writers of a bundle's objects (R273): plan objects wait for plan_commit, isolate acts at once. -/
def bundleWriter (b : BundleId) (sub : Nat) : Writer :=
  match sub with
  | 1 => wrRange (0x2640 + b.val) 1 0 3
  | 2 => wrRange (0x2640 + b.val) 2 0 5
  | 10 => wrIsolate b
  | _ => wrStore (0x2640 + b.val) sub

/-- Writers of a queue pair's objects (R281, R292). -/
def qpWriter (c : CtxId) (q : QpNo) (sub : Nat) : Writer :=
  match sub with
  | 0x0E => wrQpConnect c q
  | 0x0F => wrQpReset c q
  | _ => wrQpConfig c q sub

/-- Writers of a memory window's objects (R287, R292). -/
def mwWriter (c : CtxId) (w : MwNo) (sub : Nat) : Writer :=
  match sub with
  | 1 => wrRange (mwIdx c w) 1 0 2
  | 5 => wrMwCreate c w
  | 7 => wrMwDestroy c w
  | _ => wrStore (mwIdx c w) sub

/-- Writers of a context's objects (R87, R158). -/
def ctxWriter (c : CtxId) (k sub : Nat) : Writer :=
  match k, sub with
  | 0, 2 => wrContextEnable c
  | 1, _ => wrPriority c
  | 2, _ => wrSeedStep c sub
  | 3, 1 => wrHalt c
  | 3, 2 => wrResume c
  | 3, 3 => wrAbortFromSeq c
  | 3, 4 => wrContextReset c
  | 3, 5 => wrTokenPost c
  | 4, _ => wrWindow c sub
  | 5, _ => wrAligned (ctxIdx c 5) sub 4096
  | _, _ => wrStore (ctxIdx c k) sub

/-- Writers of a context's checkpoint objects (R317). -/
def ckptWriter (c : CtxId) (sub : Nat) : Writer :=
  match sub with
  | 3 => wrAligned (ckptIdx c) 3 32
  | 4 => wrBuddyHolder c
  | 5 => wrBuddySource c
  | 7 => wrBuddyRestream c
  | 8 => wrRange (ckptIdx c) 8 2 16
  | 9 => wrRegions c
  | 10 => wrCkptRollback c
  | 11 => wrCkptAdoptHolder c
  | 13 => fun m _ v => .guard (decide (1 < v.toNum) && decide (v.toNum ≠ 0xFF)) abRange (.ok (m.setObj (ckptIdx c) 13 v))
  | 14 => wrCkptImportDone c
  | _ => wrStore (ckptIdx c) sub

/-- The field of a counter that an index names (R362). -/
def counterFieldOf (idx : Nat) : CounterField := if idx < 0x2D30 then .source else if idx < 0x2D40 then .filter else .owner

/-- Writers of single objects. -/
def plainWriter (idx sub : Nat) : Writer :=
  match idx, sub with
  | 0x1003, 0 => wrHistory
  | 0x1010, 1 => wrStoreParams
  | 0x1011, 1 => wrRestore
  | 0x2000, 2 => wrOverride
  | 0x2000, 3 => wrRange 0x2000 3 0 127
  | 0x2000, 4 => wrRange 0x2000 4 0 2
  | 0x2010, 1 => wrResetRequest
  | 0x2010, 4 => wrStateRequest
  | 0x2200, 3 => wrPowerCap
  | 0x2303, 0xA1 => wrPeakClear
  | 0x2500, 5 => wrPlanCommit
  | 0x2700, 1 => wrHostMode
  | 0x2700, 9 => wrRange 0x2700 9 0 9216
  | 0x2980, 6 => wrRange 0x2980 6 32 1000
  | 0x2C02, 1 => wrBellwetherClear
  | 0x2D00, 1 => wrCounterCommand
  | 0x2E00, _ => wrLogView sub
  | 0x2F00, 11 => wrRange 0x2F00 11 0 1
  | 0x2F01, 1 => wrFwCommand
  | 0x2F01, 3 => wrFwImage 0
  | 0x2F03, 3 => wrNonce
  | 0x3000, 4 => wrRange 0x3000 4 0 1
  | 0x3000, 7 => wrSuspectMark
  | 0x3000, 8 => wrHealthClear
  | _, _ => wrStore idx sub

/-- The bits that an object's layout gives a meaning; the others are reserved and read as 0 (R6, R240, R272, R273, R292). -/
def definedBits (idx sub : Nat) : Nat :=
  let coords := 2 ^ 18 - 1
  if idx = 0x2500 then (if 1 ≤ sub ∧ sub ≤ 3 then coords else if sub = 4 then 7 else 2 ^ 64 - 1)
  else if 0x2501 ≤ idx ∧ idx < 0x2505 ∧ (sub = 2 ∨ sub = 3) then coords
  else if 0x2640 ≤ idx ∧ idx < 0x2650 then (if sub = 4 then 2 ^ 36 - 1 else if sub = 6 then coords else 2 ^ 64 - 1)
  else if idx = 0x2700 ∧ sub = 8 then 0x8FFF
  else if idx = 0x2700 ∧ sub = 0x11 then 0xF
  else if 0x27A0 ≤ idx ∧ idx < 0x27E0 ∧ sub = 4 then 3
  else 2 ^ 64 - 1

/-- A written value without the reserved bits of its object. -/
def Val.without (v : Val) (mask : Nat) : Val :=
  match v with
  | .num n => .num (n &&& mask)
  | v => v

/-- The writer of an object, by index and sub-index. -/
def objectWriter (idx sub : Nat) : Writer :=
  match counterOf idx sub with
  | some k => wrCounter k (counterFieldOf idx)
  | none =>
    if 0x1800 ≤ idx ∧ idx < 0x1804 ∧ sub = 2 then wrRange idx 2 0xFE 0xFE
    else if 0x1A00 ≤ idx ∧ idx < 0x1A04 then wrMapping (idx - 0x1A00) sub
    else if idx = 0x2403 then wrDerate (Fin.ofNat 134 (sub - 1))
    else if 0x2501 ≤ idx ∧ idx < 0x2505 then foldWriter (Fin.ofNat 4 (idx - 0x2501)) sub
    else if idx = 0x2510 then wrFoldBinding (Fin.ofNat 4 (sub - 1))
    else if 0x2600 ≤ idx ∧ idx < 0x2624 then linkWriter (Fin.ofNat 36 (idx - 0x2600)) sub
    else if 0x2640 ≤ idx ∧ idx < 0x2650 then bundleWriter (Fin.ofNat 16 (idx - 0x2640)) sub
    else if 0x2720 ≤ idx ∧ idx < 0x27A0 then qpWriter (Fin.ofNat 4 ((idx - 0x2720) / 32)) (Fin.ofNat 18 ((idx - 0x2720) % 32)) sub
    else if 0x27A0 ≤ idx ∧ idx < 0x27E0 then mwWriter (Fin.ofNat 4 ((idx - 0x27A0) / 16)) (Fin.ofNat 16 (idx - 0x27A0)) sub
    else if 0x2800 ≤ idx ∧ idx < 0x2840 then ctxWriter (Fin.ofNat 4 (idx / 16)) (idx % 16) sub
    else if 0x29C0 ≤ idx ∧ idx < 0x2A00 ∧ sub < 5 then wrPool (Fin.ofNat 64 (idx - 0x29C0)) sub
    else if 0x2B10 ≤ idx ∧ idx < 0x2B14 then ckptWriter (Fin.ofNat 4 (idx - 0x2B10)) sub
    else plainWriter idx sub

/-- The writer of an object: its reserved bits are not taken (R6). -/
def writerOf (idx sub : Nat) : Writer := fun m ch v => objectWriter idx sub m ch (v.without (definedBits idx sub))

/-- The writer of a piece of a DOMAIN from an offset (R290): fw_image programs it there; any other DOMAIN keeps its bytes below
the offset and ends with the piece (log 46). -/
def writerAt (idx sub offset : Nat) : Writer :=
  if idx = 0x2F01 ∧ sub = 3 then wrFwImage offset
  else if offset = 0 then writerOf idx sub
  else fun m ch v =>
    let old := (m.obj idx sub).toBytes
    match objRow? idx sub with
    | some r =>
      .guard (!r.ty.fits (offset + v.toBytes.length)) abLength
        (.guard (decide (old.length < offset)) abRange (writerOf idx sub m ch (.bytes (old.take offset ++ v.toBytes))))
    | none => .err abNoSub

/-- A write of any object, from an offset: fuses in their own way, everything else by its writer. -/
def State.writeObj (s : State) (ch : Channel) (idx sub offset : Nat) (data : Bytes) (answer : Nat → Out) : State :=
  if idx = 0x2F02 then (if offset = 0 then s.fuseWrite ch sub data answer else s.onMach fun m => m.refused answer abRange)
  else s.onMach fun m => m.writeWith ch idx sub data (writerAt idx sub offset) answer

/-- REGISTER_WRITE (R347): a write of an object, checked and applied. -/
def execRegisterWrite (ch : Channel) (idx sub : Nat) (data : Bytes) (s : State) : Host.Outcome State Fault Refusal :=
  .next (if s.m.chanUp ch then s.writeObj ch idx sub 0 data (wroteOut ch idx sub) else s)

/-! ### CAN FD (R344, R347) -/

/-- A write accepted on a channel is still to be answered: a store, or a window that is being zeroed. -/
def Mach.owes (m : Mach) (p : Out → Bool) : Bool :=
  (match m.mgmt.store with
    | some t => p t.answer
    | none => false) ||
  m.ctxs.toList.any fun x => match x.windowPending with
    | some w => p w.1
    | none => false

/-- An answer that goes out on CAN FD. -/
def Out.onCan : Out → Bool
  | .wrote .can _ _ _ => true
  | _ => false

/-- An answer that goes out on the management QP of a context. -/
def Out.onQp (c : CtxId) : Out → Bool
  | .mgmtResponse d _ => decide (d = c)
  | _ => false

/-- Change the USDO server's state. -/
def Mach.modUsdo (m : Mach) (u : Usdo) : Mach := m.modMgmt fun g => { g with usdo := u }

/-- A transfer is in progress on the USDO server's one channel (R344). -/
def Mach.usdoBusy (m : Mach) : Bool := decide (m.mgmt.usdo ≠ .idle) || m.owes Out.onCan

/-- USDO_READ (R344, R347, R348): an upload of a whole object. -/
def execUsdoRead (idx sub : Nat) (s : State) : Host.Outcome State Fault Refusal :=
  runs s fun m =>
    if !m.chanUp .can then m
    else m.answerRead .can idx sub (if m.usdoBusy then .error abState else m.readWhole s.fuses .can idx sub)

/-- fw_image: every segment is a write of its own (log 46). -/
def isImage (idx sub : Nat) : Bool := decide (idx = 0x2F01) && decide (sub = 3)

/-- A piece of fw_image by USDO: it is programmed at fw_bytes_received; the transfer goes on unless it was refused or is over. -/
def State.usdoImage (s : State) (data : Bytes) (last : Bool) : State :=
  let t := s.writeObj .can 0x2F01 3 s.m.fw.received data (wroteOut .can 0x2F01 3)
  let taken := decide (t.m.fw.received = s.m.fw.received + data.length)
  t.onMach fun m => m.modUsdo (if last || !taken then .idle else .writing 0x2F01 3 [])

/-- Data of a download: whole, it is written; else it waits for the rest. -/
def State.usdoData (s : State) (idx sub : Nat) (got : Bytes) (last : Bool) : State :=
  if last then (s.onMach fun m => m.modUsdo .idle).writeObj .can idx sub 0 got (wroteOut .can idx sub)
  else s.onMach fun m => m.modUsdo (.writing idx sub got)

/-- USDO_WRITE (R344, R347): a segment of a download, the last one or not. A second transfer beside one in progress is refused. -/
def execUsdoWrite (idx sub : Nat) (data : Bytes) (last : Bool) (s : State) : Host.Outcome State Fault Refusal :=
  let busy := s.onMach fun m => m.refused (wroteOut .can idx sub) abState
  .next (
    if !s.m.chanUp .can then s
    else match s.m.mgmt.usdo with
      | .idle =>
        if s.m.owes Out.onCan then busy
        else if isImage idx sub then s.usdoImage data last
        else s.usdoData idx sub data last
      | .writing i k got =>
        if i ≠ idx ∨ k ≠ sub then busy
        else if isImage idx sub then s.usdoImage data last
        else s.usdoData idx sub (got ++ data) last)

/-- USDO_SEGMENT_TIMEOUT (R347). -/
def execUsdoSegmentTimeout (s : State) : Host.Outcome State Fault Refusal :=
  runs s fun m =>
    match m.mgmt.usdo with
    | .idle => m
    | .writing i k _ => if m.mgmtUp then (m.modUsdo .idle).refused (wroteOut .can i k) 0x05040000 else m

/-! ### TPDOs (R345, R355) -/

/-- One mapped value: its bytes, cut to the mapped length. -/
def Mach.mapped (m : Mach) (f : Fuses) (e : Nat) : Bytes :=
  let n := (e % 256 + 7) / 8
  let b := match objRow? (e / 65536) (e / 256 % 256) with
    | some r => m.readObj f .can (e / 65536) (e / 256 % 256) r
    | none => []
  (b ++ List.replicate n 0).take n

/-- The data of a TPDO. -/
def Mach.tpdoData (m : Mach) (f : Fuses) (n : Fin 4) : Bytes := (m.mapEntries n.val).flatMap fun e => m.mapped f e

/-- A TPDO may be sent: OPERATIONAL, with a node ID, and not disabled by bit 31 of its COB-ID. -/
def Mach.tpdoOn (m : Mach) (n : Fin 4) : Bool :=
  m.canNode && decide (m.mgmt.nmt = .operational) && !bit (m.num (0x1800 + n.val) 1) 31

/-- A TPDO is sent. -/
def Mach.sendTpdo (m : Mach) (n : Fin 4) (b : Bytes) : Mach :=
  (m.modMgmt fun g => { g with tpdoLast := Vec.upd g.tpdoLast n fun _ => b }).send (.tpdo n b)

/-- TPDO_EVENT_TIMER (R355): the event timer expires; 0 stops it. -/
def execTpdoEventTimer (n : Fin 4) (s : State) : Host.Outcome State Fault Refusal :=
  runs s fun m => if m.tpdoOn n ∧ m.num (0x1800 + n.val) 5 ≠ 0 then m.sendTpdo n (m.tpdoData s.fuses n) else m

/-- TPDO_VALUE_CHANGE (R355): TPDO3 and TPDO4 follow their mapped values. -/
def execTpdoValueChange (n : Fin 4) (s : State) : Host.Outcome State Fault Refusal :=
  runs s fun m =>
    let b := m.tpdoData s.fuses n
    if m.tpdoOn n ∧ 2 ≤ n.val ∧ b ≠ m.mgmt.tpdoLast[n] then m.sendTpdo n b else m

/-! ### The management QPs (R290) -/

/-- A request's header fields. -/
structure MgmtHdr where
  op : Nat
  tag : Nat
  index : Nat
  sub : Nat
  length : Nat
  offset : Nat
  /-- Reserved bits and abort_code are zero. -/
  clean : Bool
  deriving DecidableEq, Repr

/-- The header of a request. -/
def mgmtHdr (msg : Bytes) : MgmtHdr :=
  let n := leNat (msg.take 16)
  ⟨bits n 7 0, bits n 15 8, bits n 39 24, bits n 47 40, bits n 63 48, bits n 127 96,
    decide (16 ≤ msg.length) && decide (bits n 23 16 = 0) && decide (bits n 95 64 = 0)⟩

/-- An object takes no offset: it is not a DOMAIN. -/
def noOffset (idx sub : Nat) : Bool :=
  match objRow? idx sub with
  | some r => match r.ty with
    | .domain _ => false
    | _ => true
  | none => false

/-- A well-formed request: 0x01 READ or 0x02 WRITE, with as many data bytes as its length says. -/
def MgmtHdr.ok (h : MgmtHdr) (msg : Bytes) : Bool :=
  h.clean && (decide (h.op = 1) || decide (h.op = 2)) && decide (msg.length = 16 + h.length) && decide (h.length ≤ 4080) &&
    !(noOffset h.index h.sub && decide (h.offset ≠ 0)) && (decide (h.op = 2) || decide (h.length = 0))

/-- A response: the request's header with the response's op, abort code and length, then the data. -/
def mgmtRsp (h : MgmtHdr) (abort : Nat) (data : Bytes) : Bytes :=
  natLe 16 ((h.op + 0x80) % 256 + h.tag * 2 ^ 8 + h.index * 2 ^ 24 + h.sub * 2 ^ 40 + data.length * 2 ^ 48 + abort * 2 ^ 64 +
    h.offset * 2 ^ 96) ++ data

/-- Responses on a management QP that RC has not acknowledged. -/
def Mach.mgmtOpen (m : Mach) (c : CtxId) : Nat :=
  ((m.ctxs[c]).qps[qMgmt].outstanding.filter fun r => match r with
    | .mgmt _ => true
    | _ => false).length

/-- A request arrives on a management QP: a ninth outstanding one is refused with RNR NAK, a malformed one is answered with its abort
code, any other is handled. -/
def State.mgmtIn (s : State) (c : CtxId) (msg : Bytes) (ce : Bool) (f : State → State) : State :=
  let m := s.m
  let h := mgmtHdr msg
  let rx := fun (g : Mach → Mach) => s.onMach fun m => m.qpRecv c qMgmt ce msg.length 0 g
  if !m.mgmtUp ∨ m.owes (Out.onQp c) then s
  else if !m.qpTakes c qMgmt msg.length 0 then rx id
  else if 8 ≤ m.mgmtOpen c then rx fun m => m.send (.rnrNak c qMgmt (m.num (qpIdx c qMgmt) 0x0B))
  else
    let t := rx fun m => (m.psnRx c qMgmt msg.length).send (.rcAck c qMgmt)
    if h.ok msg then f t else t.onMach fun m => m.refused (fun e => .mgmtResponse c (mgmtRsp h e [])) abIncompatible

/-- MGMT_READ (R290, R348): up to 4,080 bytes from an offset. A message of another op than WRITE is this row's. -/
def execMgmtRead (c : CtxId) (msg : Bytes) (ce : Bool) (s : State) : Host.Outcome State Fault Refusal :=
  let h := mgmtHdr msg
  .next (
    if h.op = 2 then s
    else s.mgmtIn c msg ce fun s => s.onMach fun m =>
      match (if h.offset = 0 then m.readWhole s.fuses (.qp c) h.index h.sub else m.readCopy (.qp c) h.index h.sub h.offset) with
      | .error e => m.refused (fun e => .mgmtResponse c (mgmtRsp h e [])) e
      | .ok (m, b) => m.reply (.mgmtResponse c (mgmtRsp h 0 (b.take 4080))))

/-- MGMT_WRITE (R290). -/
def execMgmtWrite (c : CtxId) (msg : Bytes) (ce : Bool) (s : State) : Host.Outcome State Fault Refusal :=
  let h := mgmtHdr msg
  .next (
    if h.op ≠ 2 then s
    else s.mgmtIn c msg ce fun s =>
      s.writeObj (.qp c) h.index h.sub h.offset (msg.drop 16) fun e => .mgmtResponse c (mgmtRsp h e []))

end Sys2Proof.Machine
end

