-- ==== Sys2Proof/Machine/Misuse.lean ====
section
/-! DEFINITION. Uses of buffers and their misuse (R108, R109, R110, R113). -/

namespace Sys2Proof.Machine

open Sys2Proof

/-! ### Uses and misuse (R108, R109, R113) -/

/-- Pool and index that a presented reference names, or the counter of its misuse. -/
def Mach.bpmLocate (m : Mach) (b : BufferRef) : Except Nat (PoolId × Nat) :=
  match b with
  | .handle h =>
    let p : PoolId := Fin.ofNat 64 (bits h.toNat 31 26)
    let i := bits h.toNat 19 0
    let q := m.pools[p]
    if q.memory = 0 ∨ q.count ≤ i ∨ bits h.toNat 25 20 ≠ 0 then .error 0x9004 else .ok (p, i)
  | .address p a =>
    let q := m.pools[p]
    if q.memory = 0 then .error 0x9004
    else if a < q.base ∨ (a - q.base) % q.size ≠ 0 then .error 0x9005
    else
      let i := (a - q.base) / q.size
      if q.count ≤ i then .error 0x9004 else .ok (p, i)

/-- The handle of a buffer. -/
def handleOf (p : PoolId) (i : Nat) : Nat := p.val * 2 ^ 26 + i

/-- An operation that a requester has in progress: a MOVE slot, a collective, a VAULT slot, a buddy or restore stream. -/
inductive BpmOp where
  | move (j : MoveJob)
  | coll (key : CollKey)
  | vault (j : VaultJob)
  | stream (c : CtxId)
  deriving DecidableEq, Repr

/-- The context that owns an operation. -/
def BpmOp.ctx : BpmOp → CtxId
  | .move j => j.c
  | .coll key => key.ctx
  | .vault j => j.c
  | .stream c => c

/-- The current operation of a requester: a context's own MOVE slot, or the oldest operation of the Shuttle, MOVE or the Drover
(log 16). -/
def Mach.currentOp (m : Mach) (r : Requester) : Option BpmOp :=
  if r.val < 4 then (m.mv.jobs.find? fun j => decide (j.c.val = r.val)).map .move
  else if r = rqMove then m.mv.jobs.head?.map .move
  else if r = rqShuttle then m.shut.colls.head?.map fun k => .coll k.key
  else match m.drover.jobs.head? with
    | some j => some (.vault j)
    | none => (allCtx.find? fun c => (m.drover.ctxs[c]).stream.isSome || (m.drover.ctxs[c]).restore.isSome).map .stream

/-- The context to which a requester's misuse is reported: the owner of its current operation, a context itself where it has
none. -/
def Mach.opOwner (m : Mach) (r : Requester) : Option CtxId :=
  match m.currentOp r with
  | some o => some o.ctx
  | none => if h : r.val < 4 then some ⟨r.val, h⟩ else none

/-- A fault of a context by no slot of its own: engine 7, UNCORRECTABLE, the pool (R156). -/
def Mach.poolFault (m : Mach) (c : CtxId) (pool : Nat) : Mach :=
  m.faultCtx c ⟨BitVec.ofNat 8 Status.uncorrectable.code, BitVec.ofNat 32 pool, 7, (m.ctxs[c]).lastCommitted, 0, (m.ctxs[c]).step,
    false, noRange, noRange, 127, m.now⟩

/-- A requester's current operation fails with UNCORRECTABLE, detail the pool (R113). -/
def Mach.failOp (m : Mach) (r : Requester) (pool : Nat) : Mach :=
  let st := Status.uncorrectable.code
  match m.currentOp r with
  | some (.move j) => m.failMove j st pool 127
  | some (.coll key) => m.groupAbort key st pool 127
  | some (.vault j) => m.failVault j .uncorrectable pool 127
  | some (.stream c) => (m.buddyLost c).poolFault c pool
  | none => match m.opOwner r with
    | some c => m.poolFault c pool
    | none => m

/-- A buffer named in a misuse is neither freed nor handed out until the next datapath reset (R113). -/
def Pool.quarantine (q : Pool) (i : Nat) : Pool :=
  if q.quarantined.contains i then q else { q with quarantined := i :: q.quarantined, freed := q.freed.filter (· ≠ i) }

/-- Misuse (R113): counted; logged with an EMCY whose detail is the handle and whose data the requester; the buffer named is
quarantined; the requester's operation fails. -/
def Mach.misuse (m : Mach) (r : Requester) (src : Nat) (handle : Nat) (at_ : Option (PoolId × Nat)) : Mach :=
  let c := m.opOwner r
  let m := (m.cnt src 127 c).emcy 0xFF02 handle 3 c 127 src 0 (natLe 1 r.val)
  let m := match at_ with
    | some (p, i) => m.modPool p fun q => q.quarantine i
    | none => m
  m.failOp r (bits handle 31 26)

/-- The number a misuse reports: the handle presented, or the handle of the pool for an address. -/
def refNumber : BufferRef → Nat
  | .handle h => h.toNat
  | .address p _ => handleOf p 0

/-- A use of a buffer: its checks, then a change of its count. -/
def Mach.bpmUse (m : Mach) (r : Requester) (b : BufferRef) (atZero : Nat) (f : Buf → Option Buf) (free : Bool) : Mach :=
  match m.bpmLocate b with
  | .error src => m.misuse r src (refNumber b) none
  | .ok (p, i) =>
    match Sparse.find i (m.pools[p]).alloc with
    | none => m.misuse r atZero (handleOf p i) (some (p, i))
    | some k =>
      if k.owner ≠ r then m.misuse r 0x9006 (handleOf p i) (some (p, i))
      else match f k with
        | none => m.misuse r 0x9009 (handleOf p i) (some (p, i))
        | some k' => if free then m.modPool p fun q => q.drop i
          else m.modPool p fun q => { q with alloc := Sparse.put i k' q.alloc }

/-- BPM_INCREMENT (R110, R113). -/
def execBpmIncrement (r : Requester) (b : BufferRef) (n : Nat) (s : State) : Host.Outcome State Fault Refusal :=
  runs s fun m => m.bpmUse r b 0x9008 (fun k => if k.refs + n ≤ 65535 then some { k with refs := k.refs + n } else none) false

/-- BPM_DECREMENT (R110, R113). -/
def execBpmDecrement (r : Requester) (b : BufferRef) (s : State) : Host.Outcome State Fault Refusal :=
  runs s fun m => m.bpmUse r b 0x9007 (fun k => some k) true

end Sys2Proof.Machine
end

