-- ==== Sys2Proof/Machine/Dispatch.lean ====
section
/-! DEFINITION. The meaning of every command: one arm per constructor, each a direct call of its meaning. -/

namespace Sys2Proof.Machine

open Sys2Proof

/-- The effect of a command on everything but the queue. -/
def exec (i : Instr) (s : State) : Host.Outcome State Fault Refusal :=
  match i with
  | .islandGateRequest isl => Sys2Proof.Machine.execIslandGateRequest isl s
  | .islandGateGrant isl => Sys2Proof.Machine.execIslandGateGrant isl s
  | .islandGateTimeout isl => Sys2Proof.Machine.execIslandGateTimeout isl s
  | .islandWake isl => Sys2Proof.Machine.execIslandWake isl s
  | .islandPowerOff isl => Sys2Proof.Machine.execIslandPowerOff isl s
  | .islandPowerOn isl => Sys2Proof.Machine.execIslandPowerOn isl s
  | .islandPowerOnDone isl => Sys2Proof.Machine.execIslandPowerOnDone isl s
  | .islandDerate ch isl data => Sys2Proof.Machine.execIslandDerate ch isl data s
  | .derateApply isl => Sys2Proof.Machine.execDerateApply isl s
  | .priorityClass ch c data => Sys2Proof.Machine.execPriorityClass ch c data s
  | .commandSend c msg ce => Sys2Proof.Machine.execCommandSend c msg ce s
  | .wordDispatch c => Sys2Proof.Machine.execWordDispatch c s
  | .sync c w => Sys2Proof.Machine.execSync c w s
  | .load c => Sys2Proof.Machine.execLoad c s
  | .store c => Sys2Proof.Machine.execStore c s
  | .copy c => Sys2Proof.Machine.execCopy c s
  | .dcopy c => Sys2Proof.Machine.execDcopy c s
  | .put c => Sys2Proof.Machine.execPut c s
  | .get c => Sys2Proof.Machine.execGet c s
  | .hostIn c => Sys2Proof.Machine.execHostIn c s
  | .hostOut c => Sys2Proof.Machine.execHostOut c s
  | .movePiece p => Sys2Proof.Machine.execMovePiece p s
  | .moveComplete c w => Sys2Proof.Machine.execMoveComplete c w s
  | .moveRetryTimeout tag => Sys2Proof.Machine.execMoveRetryTimeout tag s
  | .array c rows parity => Sys2Proof.Machine.execArray c rows parity s
  | .frozen c => Sys2Proof.Machine.execFrozen c s
  | .arrayCommit c => Sys2Proof.Machine.execArrayCommit c s
  | .arraySuspend c => Sys2Proof.Machine.execArraySuspend c s
  | .arrayResume c => Sys2Proof.Machine.execArrayResume c s
  | .vectorCopy c parity => Sys2Proof.Machine.execVectorCopy c parity s
  | .add c parity => Sys2Proof.Machine.execAdd c parity s
  | .sub c parity => Sys2Proof.Machine.execSub c parity s
  | .mul c parity => Sys2Proof.Machine.execMul c parity s
  | .div c parity => Sys2Proof.Machine.execDiv c parity s
  | .fma c parity => Sys2Proof.Machine.execFma c parity s
  | .axpby c parity => Sys2Proof.Machine.execAxpby c parity s
  | .max c parity => Sys2Proof.Machine.execMax c parity s
  | .min c parity => Sys2Proof.Machine.execMin c parity s
  | .scale c parity => Sys2Proof.Machine.execScale c parity s
  | .cast c parity => Sys2Proof.Machine.execCast c parity s
  | .relu c parity => Sys2Proof.Machine.execRelu c parity s
  | .gelu c parity => Sys2Proof.Machine.execGelu c parity s
  | .silu c parity => Sys2Proof.Machine.execSilu c parity s
  | .reluBwd c parity => Sys2Proof.Machine.execReluBwd c parity s
  | .geluBwd c parity => Sys2Proof.Machine.execGeluBwd c parity s
  | .siluBwd c parity => Sys2Proof.Machine.execSiluBwd c parity s
  | .exp c parity => Sys2Proof.Machine.execExp c parity s
  | .log c parity => Sys2Proof.Machine.execLog c parity s
  | .rsqrt c parity => Sys2Proof.Machine.execRsqrt c parity s
  | .sqrt c parity => Sys2Proof.Machine.execSqrt c parity s
  | .recip c parity => Sys2Proof.Machine.execRecip c parity s
  | .tanh c parity => Sys2Proof.Machine.execTanh c parity s
  | .sigmoid c parity => Sys2Proof.Machine.execSigmoid c parity s
  | .erf c parity => Sys2Proof.Machine.execErf c parity s
  | .softmax c parity => Sys2Proof.Machine.execSoftmax c parity s
  | .layernorm c parity => Sys2Proof.Machine.execLayernorm c parity s
  | .rmsnorm c parity => Sys2Proof.Machine.execRmsnorm c parity s
  | .rowdot c parity => Sys2Proof.Machine.execRowdot c parity s
  | .softmaxBwd c parity => Sys2Proof.Machine.execSoftmaxBwd c parity s
  | .layernormBwd c parity => Sys2Proof.Machine.execLayernormBwd c parity s
  | .rmsnormBwd c parity => Sys2Proof.Machine.execRmsnormBwd c parity s
  | .rsum c parity => Sys2Proof.Machine.execRsum c parity s
  | .rmax c parity => Sys2Proof.Machine.execRmax c parity s
  | .csum c parity => Sys2Proof.Machine.execCsum c parity s
  | .sumsq c parity => Sys2Proof.Machine.execSumsq c parity s
  | .adam c parity => Sys2Proof.Machine.execAdam c parity s
  | .sgdm c parity => Sys2Proof.Machine.execSgdm c parity s
  | .clipFactor c parity => Sys2Proof.Machine.execClipFactor c parity s
  | .dropout c parity => Sys2Proof.Machine.execDropout c parity s
  | .iadd c parity => Sys2Proof.Machine.execIadd c parity s
  | .isub c parity => Sys2Proof.Machine.execIsub c parity s
  | .imul c parity => Sys2Proof.Machine.execImul c parity s
  | .vectorCommit c => Sys2Proof.Machine.execVectorCommit c s
  | .allReduce c => Sys2Proof.Machine.execAllReduce c s
  | .reduceScatter c => Sys2Proof.Machine.execReduceScatter c s
  | .allGather c => Sys2Proof.Machine.execAllGather c s
  | .broadcast c => Sys2Proof.Machine.execBroadcast c s
  | .reduce c => Sys2Proof.Machine.execReduce c s
  | .barrier c => Sys2Proof.Machine.execBarrier c s
  | .scalarAllReduce c => Sys2Proof.Machine.execScalarAllReduce c s
  | .collectiveAdmit k => Sys2Proof.Machine.execCollectiveAdmit k s
  | .shuttleAdmitTimeout k => Sys2Proof.Machine.execShuttleAdmitTimeout k s
  | .shuttleScale => Sys2Proof.Machine.execShuttleScale s
  | .shuttleResult => Sys2Proof.Machine.execShuttleResult s
  | .shuttleData => Sys2Proof.Machine.execShuttleData s
  | .shuttleAck => Sys2Proof.Machine.execShuttleAck s
  | .shuttleNack => Sys2Proof.Machine.execShuttleNack s
  | .shuttleScalar => Sys2Proof.Machine.execShuttleScalar s
  | .shuttleAbort => Sys2Proof.Machine.execShuttleAbort s
  | .shuttleStale => Sys2Proof.Machine.execShuttleStale s
  | .bobbinResend id => Sys2Proof.Machine.execBobbinResend id s
  | .handshakeResend id => Sys2Proof.Machine.execHandshakeResend id s
  | .shuttleProgressTimeout k => Sys2Proof.Machine.execShuttleProgressTimeout k s
  | .collectiveCommit k => Sys2Proof.Machine.execCollectiveCommit k s
  | .defineGroup c => Sys2Proof.Machine.execDefineGroup c s
  | .releaseGroup c => Sys2Proof.Machine.execReleaseGroup c s
  | .setSeed c => Sys2Proof.Machine.execSetSeed c s
  | .setStep c => Sys2Proof.Machine.execSetStep c s
  | .digestWords c => Sys2Proof.Machine.execDigestWords c s
  | .digestRegion c => Sys2Proof.Machine.execDigestRegion c s
  | .snapCounters c => Sys2Proof.Machine.execSnapCounters c s
  | .stripeWrite c => Sys2Proof.Machine.execStripeWrite c s
  | .read c => Sys2Proof.Machine.execRead c s
  | .retireGeneration c => Sys2Proof.Machine.execRetireGeneration c s
  | .stripeWriteCommit c p => Sys2Proof.Machine.execStripeWriteCommit c p s
  | .vaultStripeTimeout c => Sys2Proof.Machine.execVaultStripeTimeout c s
  | .vaultSpaceTimeout c => Sys2Proof.Machine.execVaultSpaceTimeout c s
  | .tokenPost ch c data => Sys2Proof.Machine.execTokenPost ch c data s
  | .tokenDeadlock c => Sys2Proof.Machine.execTokenDeadlock c s
  | .orderedCompletionRelease c => Sys2Proof.Machine.execOrderedCompletionRelease c s
  | .halt ch c data => Sys2Proof.Machine.execHalt ch c data s
  | .contextHalted c => Sys2Proof.Machine.execContextHalted c s
  | .resume ch c data => Sys2Proof.Machine.execResume ch c data s
  | .abortFromSeq ch c data => Sys2Proof.Machine.execAbortFromSeq ch c data s
  | .contextReset ch c data => Sys2Proof.Machine.execContextReset ch c data s
  | .contextResetDone c => Sys2Proof.Machine.execContextResetDone c s
  | .contextEnable ch c => Sys2Proof.Machine.execContextEnable ch c s
  | .contextDisable ch c => Sys2Proof.Machine.execContextDisable ch c s
  | .windowWrite ch c sub data => Sys2Proof.Machine.execWindowWrite ch c sub data s
  | .windowZeroDone c => Sys2Proof.Machine.execWindowZeroDone c s
  | .recordWrite c => Sys2Proof.Machine.execRecordWrite c s
  | .ringCredit c msg ce => Sys2Proof.Machine.execRingCredit c msg ce s
  | .hostRingStallTimeout c => Sys2Proof.Machine.execHostRingStallTimeout c s
  | .bpmGrant p => Sys2Proof.Machine.execBpmGrant p s
  | .bpmQuotaWaitTimeout p => Sys2Proof.Machine.execBpmQuotaWaitTimeout p s
  | .bpmIncrement r b n => Sys2Proof.Machine.execBpmIncrement r b n s
  | .bpmDecrement r b => Sys2Proof.Machine.execBpmDecrement r b s
  | .codewordReceive l symbols => Sys2Proof.Machine.execCodewordReceive l symbols s
  | .linkAckTimeout l => Sys2Proof.Machine.execLinkAckTimeout l s
  | .linkRetrainHoldExpiry l => Sys2Proof.Machine.execLinkRetrainHoldExpiry l s
  | .linkCwBadLimit l => Sys2Proof.Machine.execLinkCwBadLimit l s
  | .linkEnable ch l => Sys2Proof.Machine.execLinkEnable ch l s
  | .linkDisable ch l => Sys2Proof.Machine.execLinkDisable ch l s
  | .linkSignalDetect l => Sys2Proof.Machine.execLinkSignalDetect l s
  | .lossOfSignal l => Sys2Proof.Machine.execLossOfSignal l s
  | .baseAlignComplete l laneMap inverted skewNs => Sys2Proof.Machine.execBaseAlignComplete l laneMap inverted skewNs s
  | .trainingFrame l f => Sys2Proof.Machine.execTrainingFrame l f s
  | .equaliseConverged l settings => Sys2Proof.Machine.execEqualiseConverged l settings s
  | .linkCheckEnd l => Sys2Proof.Machine.execLinkCheckEnd l s
  | .checkBlock l pass => Sys2Proof.Machine.execCheckBlock l pass s
  | .rateStepSwitch l => Sys2Proof.Machine.execRateStepSwitch l s
  | .rateStepLocked l => Sys2Proof.Machine.execRateStepLocked l s
  | .linkTrainTimeout l => Sys2Proof.Machine.execLinkTrainTimeout l s
  | .l1IdleTimeout l => Sys2Proof.Machine.execL1IdleTimeout l s
  | .l1Req l => Sys2Proof.Machine.execL1Req l s
  | .l1Ack l => Sys2Proof.Machine.execL1Ack l s
  | .l1Nak l => Sys2Proof.Machine.execL1Nak l s
  | .l1Keepalive l => Sys2Proof.Machine.execL1Keepalive l s
  | .l1Exit l => Sys2Proof.Machine.execL1Exit l s
  | .powerRequestLs ch l => Sys2Proof.Machine.execPowerRequestLs ch l s
  | .powerRequestL0 ch l => Sys2Proof.Machine.execPowerRequestL0 ch l s
  | .lsReq l => Sys2Proof.Machine.execLsReq l s
  | .lsAck l => Sys2Proof.Machine.execLsAck l s
  | .lsNak l => Sys2Proof.Machine.execLsNak l s
  | .lsWake l => Sys2Proof.Machine.execLsWake l s
  | .lsWakeTimeout l => Sys2Proof.Machine.execLsWakeTimeout l s
  | .testMode ch l data => Sys2Proof.Machine.execTestMode ch l data s
  | .inject ch l data => Sys2Proof.Machine.execInject ch l data s
  | .linkReset ch l data => Sys2Proof.Machine.execLinkReset ch l data s
  | .packetReceive l => Sys2Proof.Machine.execPacketReceive l s
  | .packetForward port h => Sys2Proof.Machine.execPacketForward port h s
  | .linkOutputArbitrate l => Sys2Proof.Machine.execLinkOutputArbitrate l s
  | .bundleReseqTimeout b v => Sys2Proof.Machine.execBundleReseqTimeout b v s
  | .putReceive => Sys2Proof.Machine.execPutReceive s
  | .getReceive => Sys2Proof.Machine.execGetReceive s
  | .getRspReceive => Sys2Proof.Machine.execGetRspReceive s
  | .ackReceive => Sys2Proof.Machine.execAckReceive s
  | .tokenReceive => Sys2Proof.Machine.execTokenReceive s
  | .mgtReceive => Sys2Proof.Machine.execMgtReceive s
  | .linkEvent far bundles => Sys2Proof.Machine.execLinkEvent far bundles s
  | .routeBuilt => Sys2Proof.Machine.execRouteBuilt s
  | .routeSwitch o => Sys2Proof.Machine.execRouteSwitch o s
  | .routeRebuildTimeout => Sys2Proof.Machine.execRouteRebuildTimeout s
  | .planCommit ch data => Sys2Proof.Machine.execPlanCommit ch data s
  | .rankMapCommit ch f data => Sys2Proof.Machine.execRankMapCommit ch f data s
  | .foldBinding ch c data => Sys2Proof.Machine.execFoldBinding ch c data s
  | .foldAccept ch f data => Sys2Proof.Machine.execFoldAccept ch f data s
  | .foldWaitTimeout c => Sys2Proof.Machine.execFoldWaitTimeout c s
  | .isolate ch b data => Sys2Proof.Machine.execIsolate ch b data s
  | .hostModeRequest ch data => Sys2Proof.Machine.execHostModeRequest ch data s
  | .hostLinkUp => Sys2Proof.Machine.execHostLinkUp s
  | .hostLinkUpTimeout => Sys2Proof.Machine.execHostLinkUpTimeout s
  | .pfcFrame prio xoff => Sys2Proof.Machine.execPfcFrame prio xoff s
  | .arpRequest target requester => Sys2Proof.Machine.execArpRequest target requester s
  | .neighbourSolicitation target requester => Sys2Proof.Machine.execNeighbourSolicitation target requester s
  | .echoRequest v6 target payload => Sys2Proof.Machine.execEchoRequest v6 target payload s
  | .cnp c q => Sys2Proof.Machine.execCnp c q s
  | .rateRecover c q => Sys2Proof.Machine.execRateRecover c q s
  | .rdmaWrite c q rkey offset data ce => Sys2Proof.Machine.execRdmaWrite c q rkey offset data ce s
  | .rdmaRead c q rkey offset len ce => Sys2Proof.Machine.execRdmaRead c q rkey offset len ce s
  | .rdmaReadResponse c q data ce => Sys2Proof.Machine.execRdmaReadResponse c q data ce s
  | .rcAck c q => Sys2Proof.Machine.execRcAck c q s
  | .rcNak c q kind => Sys2Proof.Machine.execRcNak c q kind s
  | .rcAckTimeout c q => Sys2Proof.Machine.execRcAckTimeout c q s
  | .mgmtRead c msg ce => Sys2Proof.Machine.execMgmtRead c msg ce s
  | .mgmtWrite c msg ce => Sys2Proof.Machine.execMgmtWrite c msg ce s
  | .qpConnect ch c q data => Sys2Proof.Machine.execQpConnect ch c q data s
  | .qpReset ch c q data => Sys2Proof.Machine.execQpReset ch c q data s
  | .mwCreate ch c w data => Sys2Proof.Machine.execMwCreate ch c w data s
  | .mwDestroy ch c w data => Sys2Proof.Machine.execMwDestroy ch c w data s
  | .stepBoundary c => Sys2Proof.Machine.execStepBoundary c s
  | .ckptBarrierStart c waitUs => Sys2Proof.Machine.execCkptBarrierStart c waitUs s
  | .patchCopy stallNs upset => Sys2Proof.Machine.execPatchCopy stallNs upset s
  | .cowStallOverBound stallUs => Sys2Proof.Machine.execCowStallOverBound stallUs s
  | .bulkPutReceive => Sys2Proof.Machine.execBulkPutReceive s
  | .bulkGetReceive => Sys2Proof.Machine.execBulkGetReceive s
  | .buddyRestream ch c data => Sys2Proof.Machine.execBuddyRestream ch c data s
  | .ckptRollback ch c data => Sys2Proof.Machine.execCkptRollback ch c data s
  | .rollbackDone c ok => Sys2Proof.Machine.execRollbackDone c ok s
  | .ckptAdoptHolder ch c data => Sys2Proof.Machine.execCkptAdoptHolder ch c data s
  | .ckptImportDone ch c data => Sys2Proof.Machine.execCkptImportDone ch c data s
  | .vaultDieFailure die => Sys2Proof.Machine.execVaultDieFailure die s
  | .vaultRebuildDone => Sys2Proof.Machine.execVaultRebuildDone s
  | .vaultRefresh r => Sys2Proof.Machine.execVaultRefresh r s
  | .patrolScrub chan r => Sys2Proof.Machine.execPatrolScrub chan r s
  | .zqCalibration chan => Sys2Proof.Machine.execZqCalibration chan s
  | .dramTrained reports => Sys2Proof.Machine.execDramTrained reports s
  | .moduleScopeError e => Sys2Proof.Machine.execModuleScopeError e s
  | .foldFence ch f data => Sys2Proof.Machine.execFoldFence ch f data s
  | .fenceMessage f => Sys2Proof.Machine.execFenceMessage f s
  | .gooseBandTrigger die => Sys2Proof.Machine.execGooseBandTrigger die s
  | .gooseLoadTrigger => Sys2Proof.Machine.execGooseLoadTrigger s
  | .gooseTile isl result rerunsOk rowFault => Sys2Proof.Machine.execGooseTile isl result rerunsOk rowFault s
  | .healthClear ch data => Sys2Proof.Machine.execHealthClear ch data s
  | .gooseRotationDone => Sys2Proof.Machine.execGooseRotationDone s
  | .suspectMark ch data => Sys2Proof.Machine.execSuspectMark ch data s
  | .watchdogRestart => Sys2Proof.Machine.execWatchdogRestart s
  | .nmtStart => Sys2Proof.Machine.execNmtStart s
  | .nmtStop => Sys2Proof.Machine.execNmtStop s
  | .nmtEnterPreOperational => Sys2Proof.Machine.execNmtEnterPreOperational s
  | .nmtResetNode => Sys2Proof.Machine.execNmtResetNode s
  | .nmtResetCommunication => Sys2Proof.Machine.execNmtResetCommunication s
  | .usdoRead index sub => Sys2Proof.Machine.execUsdoRead index sub s
  | .usdoWrite index sub data last => Sys2Proof.Machine.execUsdoWrite index sub data last s
  | .usdoSegmentTimeout => Sys2Proof.Machine.execUsdoSegmentTimeout s
  | .domainCopyExpiry ch => Sys2Proof.Machine.execDomainCopyExpiry ch s
  | .time value => Sys2Proof.Machine.execTime value s
  | .tpdoEventTimer n => Sys2Proof.Machine.execTpdoEventTimer n s
  | .tpdoValueChange n => Sys2Proof.Machine.execTpdoValueChange n s
  | .heartbeat => Sys2Proof.Machine.execHeartbeat s
  | .emcySend => Sys2Proof.Machine.execEmcySend s
  | .canRxOverrun lost => Sys2Proof.Machine.execCanRxOverrun lost s
  | .canBusOffRecovered => Sys2Proof.Machine.execCanBusOffRecovered s
  | .storeParameters ch data => Sys2Proof.Machine.execStoreParameters ch data s
  | .storeComplete => Sys2Proof.Machine.execStoreComplete s
  | .restoreDefaultParameters ch data => Sys2Proof.Machine.execRestoreDefaultParameters ch data s
  | .counterRun ch => Sys2Proof.Machine.execCounterRun ch s
  | .counterStop ch => Sys2Proof.Machine.execCounterStop ch s
  | .counterFreeze ch => Sys2Proof.Machine.execCounterFreeze ch s
  | .counterClear ch => Sys2Proof.Machine.execCounterClear ch s
  | .counterConfigure ch k field data => Sys2Proof.Machine.execCounterConfigure ch k field data s
  | .sensorPoll n r => Sys2Proof.Machine.execSensorPoll n r s
  | .sensorStale n => Sys2Proof.Machine.execSensorStale n s
  | .logRecordWrite => Sys2Proof.Machine.execLogRecordWrite s
  | .logMirrorCopy => Sys2Proof.Machine.execLogMirrorCopy s
  | .sensorPeakClear ch data => Sys2Proof.Machine.execSensorPeakClear ch data s
  | .bellwetherClear ch data => Sys2Proof.Machine.execBellwetherClear ch data s
  | .fwBegin ch => Sys2Proof.Machine.execFwBegin ch s
  | .fwEraseComplete => Sys2Proof.Machine.execFwEraseComplete s
  | .fwImage ch offset data => Sys2Proof.Machine.execFwImage ch offset data s
  | .fwVerify ch => Sys2Proof.Machine.execFwVerify ch s
  | .fwVerifyComplete => Sys2Proof.Machine.execFwVerifyComplete s
  | .fwStage ch => Sys2Proof.Machine.execFwStage ch s
  | .fwCancel ch => Sys2Proof.Machine.execFwCancel ch s
  | .ownerKeyEnroll ch data => Sys2Proof.Machine.execOwnerKeyEnroll ch data s
  | .secureBootFuseCommit ch data => Sys2Proof.Machine.execSecureBootFuseCommit ch data s
  | .rollbackAdvance ch data => Sys2Proof.Machine.execRollbackAdvance ch data s
  | .boot => Sys2Proof.Machine.execBoot s
  | .bootConfirm => Sys2Proof.Machine.execBootConfirm s
  | .quote ch => Sys2Proof.Machine.execQuote ch s
  | .stateRequestActive ch => Sys2Proof.Machine.execStateRequestActive ch s
  | .stateRequestQuiet ch => Sys2Proof.Machine.execStateRequestQuiet ch s
  | .stateRequestStandby ch => Sys2Proof.Machine.execStateRequestStandby ch s
  | .stateRequestMgmtOnly ch => Sys2Proof.Machine.execStateRequestMgmtOnly ch s
  | .stateTransitionComplete => Sys2Proof.Machine.execStateTransitionComplete s
  | .idleEntry => Sys2Proof.Machine.execIdleEntry s
  | .idleWake => Sys2Proof.Machine.execIdleWake s
  | .quietWake => Sys2Proof.Machine.execQuietWake s
  | .coldReset straps => Sys2Proof.Machine.execColdReset straps s
  | .powerDown => Sys2Proof.Machine.execPowerDown s
  | .resetNAssert => Sys2Proof.Machine.execResetNAssert s
  | .resetNRelease straps => Sys2Proof.Machine.execResetNRelease straps s
  | .warmResetRequest ch => Sys2Proof.Machine.execWarmResetRequest ch s
  | .datapathResetDramKept ch => Sys2Proof.Machine.execDatapathResetDramKept ch s
  | .datapathResetDramLost ch => Sys2Proof.Machine.execDatapathResetDramLost ch s
  | .managementOnlyReset ch => Sys2Proof.Machine.execManagementOnlyReset ch s
  | .resetBegin straps => Sys2Proof.Machine.execResetBegin straps s
  | .resetComplete => Sys2Proof.Machine.execResetComplete s
  | .overvoltageTrip => Sys2Proof.Machine.execOvervoltageTrip s
  | .powerCapTick averageW => Sys2Proof.Machine.execPowerCapTick averageW s
  | .thermalThrottleTick die => Sys2Proof.Machine.execThermalThrottleTick die s
  | .thermalTrip n => Sys2Proof.Machine.execThermalTrip n s
  | .registerWrite ch index sub data => Sys2Proof.Machine.execRegisterWrite ch index sub data s
  | .hostLinkDown => Sys2Proof.Machine.execHostLinkDown s
  | .canErrorPassive passive => Sys2Proof.Machine.execCanErrorPassive passive s
  | .auditCommit c => Sys2Proof.Machine.execAuditCommit c s
  | .vaultReadCommit c => Sys2Proof.Machine.execVaultReadCommit c s
  | .retiredGenerationErase g => Sys2Proof.Machine.execRetiredGenerationErase g s
  | .exponentScanComplete k => Sys2Proof.Machine.execExponentScanComplete k s
  | .unsupportedOperation c q kind => Sys2Proof.Machine.execUnsupportedOperation c q kind s
  | .otherFrame kind => Sys2Proof.Machine.execOtherFrame kind s

end Sys2Proof.Machine
end

