-- ==== Sys2Proof/Machine/Step.lean ====
section
/-! DEFINITION. One step: the command at the front of the queue, or, on an empty queue, one nanosecond of time. -/

namespace Sys2Proof.Machine

open Sys2Proof

/-- The block idles for one nanosecond of its timestamp counter (00 Units; log 11). -/
def tick (s : State) : State := { s with m := { s.m with now := s.m.now + 1 } }

/-- Take the command at the front of the queue and run it on the state with the rest of the queue; on an empty queue let
one nanosecond pass. -/
def step (s : State) : Host.Outcome State Fault Refusal :=
  match s.pending with
  | [] => .next (tick s)
  | i :: rest => exec i { s with pending := rest }

/-- Put the command that a word spells at the front of the queue; no word of this table spells one. -/
def State.withFetchWord (s : State) (nbits w : Nat) : State :=
  match decodeTableWord nbits w with
  | some i => { s with pending := i :: s.pending }
  | none => s

end Sys2Proof.Machine
end

