-- ==== Sys2Proof/Safety.lean ====
section
/-! DEFINITION. What a safe run is: no step ends in a fault or a refusal. -/

namespace Sys2Proof

open Sys2Proof.Machine

/-- The state n steps later, if every step answers a next state. -/
def runSteps : Nat → State → Option State
  | 0, s => some s
  | n + 1, s => match step s with
    | .next t => runSteps n t
    | _ => none

/-- A run of n steps from s is safe: it never faults and is never refused. -/
def SafeRun (n : Nat) (s : State) : Prop := runSteps n s ≠ none

end Sys2Proof
end

