-- ==== Sys2Proof/WellFormed.lean ====
section
/-! DEFINITION. Which commands are well formed: operands that have a fixed length or range in the manual and a wider type here.
Everything the manual checks and answers itself (lengths of dictionary data, of SENDs, of packets) is not checked here. -/

namespace Sys2Proof

/-- An index and sub-index of the dictionary: 16 and 8 bits (R290). -/
def wfObject (index sub : Nat) : Bool := decide (index < 2 ^ 16) && decide (sub < 2 ^ 8)

/-- A well-formed command. -/
def Instr.wf : Instr → Bool
  -- a window object is one of sub-indices 1 to 4 (R87)
  | .windowWrite _ _ k _ => decide (1 ≤ k) && decide (k ≤ 4)
  -- a codeword has 544 symbols (R222)
  | .codewordReceive _ symbols => decide (symbols.length = 544)
  -- a lane map names each of four lanes once (R230)
  | .baseAlignComplete _ laneMap _ _ => decide (laneMap.length = 4) && decide laneMap.Nodup
  -- a module's bundle states are sixteen (R251)
  | .linkEvent _ bundles => decide (bundles.length = 16)
  -- a training frame has 320 bits (R229)
  | .trainingFrame _ f => decide (f.bits.length = 320)
  -- per lane a CTLE setting of 0 to 15 and eight DFE taps (R235)
  | .equaliseConverged _ settings => decide (settings.length = 36) &&
      (List.range 4).all fun i => decide (settings.getD (9 * i) 0 ≤ 15)
  -- an IPv6 target has 16 bytes
  | .neighbourSolicitation target _ => decide (target.length = 16)
  | .echoRequest v6 target _ => decide (target.length = if v6 then 16 else 4)
  -- eight priorities (R277)
  | .pfcFrame prio _ => decide (prio < 8)
  -- one report per channel (R83)
  | .dramTrained reports => decide (reports.length = 24)
  | .usdoRead index k => wfObject index k
  | .usdoWrite index k _ _ => wfObject index k
  | .registerWrite _ index k _ => wfObject index k
  | _ => true

end Sys2Proof
end

