-- ==== Sys2Proof/Certificates/Slice0/Obligations.lean ====
section
/-! DEFINITION. The statements for the provers, and the few words they are written in. -/

namespace Sys2Proof.Claims

open Sys2Proof Sys2Proof.Machine

/-- exec answers a next state, and P holds of it. -/
def Ends (i : Instr) (s : State) (P : State → Prop) : Prop := ∃ t, exec i s = .next t ∧ P t

/-- Nothing of s changes into t but what `take` takes over from t: queue, fuses and every other field stay. -/
def Only (take : Mach → Mach → Mach) (s t : State) : Prop := t = { s with m := take s.m t.m }

/-- Every island but i is as before. -/
def OtherIslands (i : IslandId) (s t : State) : Prop := ∀ j : IslandId, j ≠ i → t.m.islands[j] = s.m.islands[j]

/-- Every context but c is as before. -/
def OtherCtxs (c : CtxId) (s t : State) : Prop := ∀ d : CtxId, d ≠ c → t.m.ctxs[d] = s.m.ctxs[d]

/-- Every link but l is as before. -/
def OtherLinks (l : LinkId) (s t : State) : Prop := ∀ k : LinkId, k ≠ l → t.m.links[k] = s.m.links[k]

/-- Scratchpad and DRAM hold what they held. -/
def SameMemory (s t : State) : Prop := t.m.spad = s.m.spad ∧ ∀ a n, t.m.dramRead a n = s.m.dramRead a n

/-- A message of the host port has been sent: it left in its envelope, or it waits last while its class is paused (R276, R277). -/
def Sent (o : Out) (s t : State) : Prop :=
  if s.m.holds o = true then t.m.out = s.m.out ∧ t.m.host.waiting.getLast? = some o else t.m.out = s.m.wire o :: s.m.out

/-- A write of an object on a channel reaches the dictionary and passes checks 1 to 6 of R347. -/
def Reaches (s : State) (ch : Channel) (idx sub : Nat) (data : Bytes) : Prop :=
  s.m.chanUp ch = true ∧ ∃ r, s.m.checkWrite ch idx sub data = .ok r

/-- The newest message sent is the answer of success to a write. -/
def Accepted (ch : Channel) (idx sub : Nat) (t : State) : Prop := t.m.out.head? = some (wroteOut ch idx sub 0)

/-- The write was refused with an abort code, counted in usdo_abort, and changed nothing else (R347). -/
def RefusedWith (code : Nat) (ch : Channel) (idx sub : Nat) (s t : State) : Prop :=
  t = { s with m := (s.m.cnt 0xF005 133).send (wroteOut ch idx sub code) }

end Sys2Proof.Claims

open Sys2Proof Sys2Proof.Machine Sys2Proof.Claims

/-! ### The block: its queue, its outcomes -/

/-- A step takes the command at the front of the queue and runs it on the state with the rest of the queue (the row's cut; log 2); on an
empty queue it lets one nanosecond of the timestamp counter pass and changes nothing else (00 Units; the model's choice, log 11). -/
def Obligations.StepRunsFrontCommand : Prop :=
  (∀ (i : Instr) (rest : List Instr) (s : State), s.pending = i :: rest → step s = exec i { s with pending := rest }) ∧
    ∀ s : State, s.pending = [] → ∃ t, step s = .next t ∧ t.m.now = s.m.now + 1 ∧ Only (fun a b => { a with now := b.now }) s t

/-- Every command answers a next state and leaves the waiting commands alone: no command stops the block (log 2). So a run of n steps
never stops, and takes exactly the first n commands off the queue, oldest first. -/
def Obligations.RunsTakeCommandsInOrder : Prop :=
  (∀ (i : Instr) (s : State), Ends i s fun t => t.pending = s.pending) ∧
  ∀ (n : Nat) (s : State), SafeRun n s ∧ ∀ t, runSteps n s = some t → t.pending = s.pending.drop n

/-! ### Fuses (R369 to R371) -/

namespace Sys2Proof.Claims

/-- Every fuse that f has blown is blown in g (R369). -/
def FusesGrow (f g : Fuses) : Prop :=
  (f.secureBoot = true → g.secureBoot = true) ∧ (f.ownerEnrolled = true → g.ownerEnrolled = true) ∧
    (∀ i, (f.ownerHash.getD i 0) &&& (g.ownerHash.getD i 0) = f.ownerHash.getD i 0) ∧ f.rollback &&& g.rollback = f.rollback

/-- The form the fuses always have: a 256-bit hash, all zero until an owner key is enrolled, and a rollback counter blown from bit 0
upward, so that the number of bits set is the version (R369 to R371). -/
def FuseForm (f : Fuses) : Prop :=
  f.ownerHash.length = 32 ∧ (f.ownerEnrolled = false → f.ownerHash = List.replicate 32 0) ∧
    ∃ n ≤ 64, f.rollback.toNat = 2 ^ n - 1

end Sys2Proof.Claims

/-- The fuses have their form at reset, with nothing blown (the factory state the model starts from, log 9). -/
def Obligations.ResetFuseForm : Prop :=
  FuseForm State.reset.fuses ∧ State.reset.fuses.secureBoot = false ∧ State.reset.fuses.ownerEnrolled = false ∧
    State.reset.fuses.rollback = 0

/-- R369 to R371: whatever command a step runs, a fuse once blown stays blown, and the fuses keep their form: the hash is zero until
enrolment and never changes after it, the rollback counter is a run of ones from bit 0. Only the three commit rows and the three rows
through which any object can be written change the fuses; every other command leaves all of them as they are. -/
def Obligations.StepKeepsFuses : Prop :=
  (∀ (f : Fuses) (s t : State), FusesGrow f s.fuses → FuseForm s.fuses → step s = .next t →
    FusesGrow f t.fuses ∧ FuseForm t.fuses ∧ (s.fuses.ownerEnrolled = true → t.fuses.ownerHash = s.fuses.ownerHash)) ∧
  ∀ (i : Instr) (s : State),
    (∀ ch b, i ≠ .ownerKeyEnroll ch b) → (∀ ch b, i ≠ .secureBootFuseCommit ch b) → (∀ ch b, i ≠ .rollbackAdvance ch b) →
    (∀ ch x k b, i ≠ .registerWrite ch x k b) → (∀ x k b l, i ≠ .usdoWrite x k b l) → (∀ c b e, i ≠ .mgmtWrite c b e) →
    Ends i s fun t => t.fuses = s.fuses

/-! ### Clock islands and priority classes (R17 to R25) -/

/-- R17, R18, R21: every row about a clock island has its own effect in the state of the table of R17 from which it applies, and no other
island changes state by it; while work is queued or in flight in the island a gate request is not granted and nothing changes. Switched
off, an island of a compute die leaves scratchpad, DRAM and objects as they are (a Loom island loses the two banks of stationary
operands), a memory controller leaves the contents of the 23 other channels as they are; an island that the module state keeps off is not
switched on (R382). -/
def Obligations.IslandCommandsMoveOneIsland : Prop :=
  ∀ (s : State) (i : IslandId),
    let x := s.m.islands[i]
    (x.st = .run → Ends (.islandGateRequest i) s fun t =>
      t.m.islands[i] = { x with gateReq := true } ∧ OtherIslands i s t ∧ Only (fun a b => { a with islands := b.islands }) s t) ∧
    (x.st = .run → x.gateReq = true → s.m.islandBusy i = false → Ends (.islandGateGrant i) s fun t =>
      t.m.islands[i] = { x with st := .clockGated, gateReq := false } ∧ OtherIslands i s t ∧
        Only (fun a b => { a with islands := b.islands }) s t) ∧
    (s.m.islandBusy i = true → exec (.islandGateGrant i) s = .next s) ∧
    (x.gateReq = true → Ends (.islandGateTimeout i) s fun t =>
      t.m.islands[i] = { x with gateReq := false } ∧ t.m.counters = (s.m.cnt 0x0003 i.val).counters ∧ OtherIslands i s t ∧
        Only (fun a b => { a with islands := b.islands, counters := b.counters }) s t) ∧
    (x.st = .clockGated → Ends (.islandWake i) s fun t =>
      t.m.islands[i] = { x with st := .run } ∧ OtherIslands i s t ∧ Only (fun a b => { a with islands := b.islands }) s t) ∧
    (x.st = .clockGated → Ends (.islandPowerOff i) s fun t =>
      t.m.islands[i] = { x with st := .powerGated } ∧ OtherIslands i s t ∧ t.m.spad = s.m.spad ∧ t.m.dict = s.m.dict ∧
        (i.val < 92 → Only (fun a b => { a with islands := b.islands, active := b.active, inactive := b.inactive }) s t) ∧
        (i.val < 92 → i.val % 23 < 9 → t.m.active = none ∧ t.m.inactive = none) ∧
        (i.val < 92 → 9 ≤ i.val % 23 → t.m.active = s.m.active ∧ t.m.inactive = s.m.inactive) ∧
        (102 ≤ i.val → i.val < 126 → ∀ a, (dramChan a).val ≠ i.val - 102 → t.m.dramByte a = s.m.dramByte a)) ∧
    (x.st = .powerGated → s.m.powered i = true → Ends (.islandPowerOn i) s fun t =>
      t.m.islands[i] = { x with st := .reset, poweringOn := true } ∧ OtherIslands i s t ∧
        Only (fun a b => { a with islands := b.islands }) s t) ∧
    (s.m.powered i = false → exec (.islandPowerOn i) s = .next s ∧ exec (.islandPowerOnDone i) s = .next s) ∧
    (x.st = .reset → x.poweringOn = true → s.m.powered i = true → Ends (.islandPowerOnDone i) s fun t =>
      t.m.islands[i] = { x with st := .run, poweringOn := false } ∧ OtherIslands i s t ∧ SameMemory s t ∧ t.m.dict = s.m.dict) ∧
    (x.effective ≠ x.wanted → s.m.midWork i = false → s.m.reachable [i] = true → Ends (.derateApply i) s fun t =>
      t.m.islands[i] = { x with effective := x.wanted, tileDue := x.tileDue || gooseTests i } ∧ OtherIslands i s t ∧
        Only (fun a b => { a with islands := b.islands }) s t)

/-- R21, R25: a write to island_derate sets the operator's request of that island alone; the three other requests and the step the island
runs at stay, and the step an island wants is the largest that any requester holds. A write to the priority class of a context gives that
context the class 0, 1 or 2, and no other context another class. Values outside the ranges are refused. -/
def Obligations.DerateAndPriorityWritesActOnTheirOwn : Prop :=
  ∀ (s : State) (ch : Channel) (b : Byte),
    (∀ i : IslandId, Reaches s ch 0x2403 (i.val + 1) [b] →
      (b.toNat ≤ 3 → Ends (.islandDerate ch i [b]) s fun t =>
        t.m.islands[i] = { s.m.islands[i] with reqOp := b.setWidth 2 } ∧ OtherIslands i s t ∧ Accepted ch 0x2403 (i.val + 1) t ∧
          Only (fun a b => { a with islands := b.islands, log := b.log, counters := b.counters, out := b.out }) s t) ∧
      (3 < b.toNat → Ends (.islandDerate ch i [b]) s (RefusedWith abRange ch 0x2403 (i.val + 1) s))) ∧
    (∀ x : Island, x.wanted.toNat = max (max x.reqOp.toNat x.reqGoose.toNat) (max x.reqThermal.toNat x.reqPower.toNat)) ∧
    ∀ c : CtxId, Reaches s ch (ctxIdx c 1) 1 [b] →
      (b.toNat ≤ 2 → Ends (.priorityClass ch c [b]) s fun t =>
        t.m.classOf c = b.toNat ∧ (∀ d, d ≠ c → t.m.classOf d = s.m.classOf d) ∧ Accepted ch (ctxIdx c 1) 1 t ∧
          Only (fun a b => { a with dict := b.dict, log := b.log, counters := b.counters, out := b.out }) s t) ∧
      (2 < b.toNat → Ends (.priorityClass ch c [b]) s (RefusedWith abRange ch (ctxIdx c 1) 1 s))

/-! ### Command delivery, dispatch, completion (R117 to R144, R282, R283) -/

namespace Sys2Proof.Claims

/-- A queue pair of a context takes a message of n payload bytes: the port's link is up, the QP is in RTS, the packets fit host_mtu (R276,
R281). -/
def QpOpen (s : State) (c : CtxId) (q : QpNo) (n ext : Nat) : Prop := s.m.qpTakes c q n ext = true

/-- The sequencer turns to context c: its islands can be reached, and the context has the turn (R18, R131). -/
def Turn (s : State) (c : CtxId) : Prop := s.m.reachable sequencerPath = true ∧ s.m.dispatchTurn c = true

/-- The sequencer dispatches word w of context c next: the context is ENABLED and has the turn, no step boundary holds it, the head of its
command queue frames w with the expected word_seq, w passes the checks of R129, its queues have room, the islands of its slots can be
reached, its SYNC waits hold, and a setting that writes a record finds room for it. `rest` is what the command queue then holds. -/
def Dispatchable (s : State) (c : CtxId) (w : Word) (rest : List Bytes) : Prop :=
  let x := s.m.ctxs[c]
  x.st = .enabled ∧ Turn s c ∧ x.stepHold = .none ∧ w.seq = x.expected ∧ wordChecks s.m.grade w = none ∧
    x.queueRoom w = true ∧ x.waitsHold w.waits = true ∧ x.settingRoom w = true ∧ s.m.reachable w.path = true ∧
    ∃ send tail b more, x.cmdQ = send :: tail ∧ frame send = some (b, more) ∧ w = wordOf b ∧ rest = putBack more tail

/-- Engine queue e of context c has grown by the slots of w for that engine, in their order, with the seed and step of the word's dispatch
(R131, R142); a slot that commits at dispatch takes no place in it (R128). -/
def Queued (s t : State) (c : CtxId) (w : Word) (e : Eng) : Prop :=
  let ss := (s.m.ctxs[c]).seedStep w
  ((t.m.ctxs[c]).queues[e.num]).map (fun q => (q.seq, q.bytes, q.seed, q.step, q.cls)) =
    ((s.m.ctxs[c]).queues[e.num]).map (fun q => (q.seq, q.bytes, q.seed, q.step, q.cls)) ++
      (w.engineSlots.filter fun p => decide (p.1 = e) && !isSetting p.1 p.2).map
        fun p => (w.seq, p.2, ss.1, ss.2, s.m.classOf c)

end Sys2Proof.Claims

/-- R280, R282, R283: each QP of each context has its own local QP number, 0x0100 + 0x20c + q. A SEND of 1 to 4,096 bytes on an open
command QP joins the end of the context's command queue, whatever its bytes say, and is acknowledged; a longer one is NAKed and the QP
enters ERROR; one that finds no room is answered with RNR NAK and changes no context. Each answer goes out in its QP's envelope, or waits
while its class is paused (R277). -/
def Obligations.CommandSendJoinsTheQueue : Prop :=
  (∀ (c : CtxId) (q : QpNo), qpOfNumber (0x0100 + 0x20 * c.val + q.val) = some (c, q)) ∧
  ∀ (s : State) (c : CtxId) (msg : Bytes), QpOpen s c qCmd msg.length 0 →
    (0 < msg.length → msg.length ≤ 4096 → (s.m.ctxs[c]).cmdRoom = true → Ends (.commandSend c msg false) s fun t =>
      (t.m.ctxs[c]).cmdQ = (s.m.ctxs[c]).cmdQ ++ [msg] ∧ Sent (.rcAck c qCmd) s t ∧ OtherCtxs c s t ∧ SameMemory s t ∧
        t.m.dict = s.m.dict ∧ t.fuses = s.fuses) ∧
    (4096 < msg.length → Ends (.commandSend c msg false) s fun t =>
      (t.m.ctxs[c]).cmdQ = (s.m.ctxs[c]).cmdQ ∧ (t.m.ctxs[c]).qps[qCmd].st = .error ∧
        Sent (.rcNak c qCmd .invalidRequest) s t) ∧
    (msg.length ≤ 4096 → (s.m.ctxs[c]).cmdRoom = false → Ends (.commandSend c msg false) s fun t =>
      t.m.ctxs = s.m.ctxs ∧ Sent (.rnrNak c qCmd (s.m.num (qpIdx c qCmd) 0x0B)) s t)

/-- R128, R131, R142: a dispatchable word leaves the command queue, next_expected_seq goes up by one, and every one of its slots joins its
engine queue at once, with the seed and step in force at dispatch. CONF SET_SEED and SET_STEP take effect then: the context's seed, or its
step, is the value the slot carries, the other is unchanged, and the slot takes no place in an engine queue. -/
def Obligations.DispatchPlacesEverySlot : Prop :=
  ∀ (s : State) (c : CtxId) (w : Word) (rest : List Bytes), Dispatchable s c w rest →
    (Ends (.wordDispatch c) s fun t =>
      (t.m.ctxs[c]).cmdQ = rest ∧ (t.m.ctxs[c]).expected = (s.m.ctxs[c]).expected + 1 ∧ (∀ e : Eng, Queued s t c w e) ∧
        ((t.m.ctxs[c]).seed, (t.m.ctxs[c]).step) = (s.m.ctxs[c]).seedStep w ∧
        t.m.lastDispatch = c ∧ OtherCtxs c s t ∧
        Only (fun a b => { a with
          ctxs := b.ctxs, log := b.log, counters := b.counters, islands := b.islands, lastDispatch := b.lastDispatch }) s t) ∧
    ∀ b : Bytes, w.slot 7 = some b →
      ((parseConf b).op = 2 → Ends (.setSeed c) s fun t =>
        (t.m.ctxs[c]).seed = BitVec.ofNat 64 (parseConf b).value ∧ (t.m.ctxs[c]).step = (s.m.ctxs[c]).step ∧
          (t.m.ctxs[c]).cmdQ = rest ∧ Queued s t c w .conf) ∧
      ((parseConf b).op = 3 → Ends (.setStep c) s fun t =>
        (t.m.ctxs[c]).step = BitVec.ofNat 64 (parseConf b).value ∧ (t.m.ctxs[c]).seed = (s.m.ctxs[c]).seed ∧
          (t.m.ctxs[c]).cmdQ = rest ∧ Queued s t c w .conf)

/-- R118, R129, R143: what stands at the head of a command queue is not dispatched but rejected where it cannot be framed or its checks
fail: no slot of it reaches an engine queue, and the context starts to halt with the status of the first failed check. A word leaves the
queue; of a SEND that cannot be framed, what is left stays queued. A word whose word_seq lies before the expected one is dropped without a
fault. A context every head of which is blocked, with nothing running and no token on its way, faults with TOKEN_DEADLOCK: the Heddle dump
holds an entry for each blocked head, and the detail one bit for each. -/
def Obligations.RejectionAndDeadlockFaultTheContext : Prop :=
  (∀ (s : State) (c : CtxId) (send : Bytes) (tail : List Bytes),
    let x := s.m.ctxs[c]
    x.st = .enabled → Turn s c → x.stepHold = .none → x.cmdQ = send :: tail →
    (∀ b more st d, frame send = some (b, more) → (wordOf b).seq = x.expected → wordChecks s.m.grade (wordOf b) = some (st, d) →
      Ends (.wordDispatch c) s fun t =>
        (t.m.ctxs[c]).cmdQ = putBack more tail ∧ (t.m.ctxs[c]).queues = x.queues ∧ (t.m.ctxs[c]).st = .halting ∧
          (t.m.ctxs[c]).cause = .fault ∧
          (t.m.ctxs[c]).pendingFault.map (fun f => (f.status, f.detail)) = some (BitVec.ofNat 8 st.code, BitVec.ofNat 32 d)) ∧
    (∀ b more, frame send = some (b, more) → seqBefore 32767 (wordOf b).seq x.expected = true →
      Ends (.wordDispatch c) s fun t =>
        (t.m.ctxs[c]).cmdQ = putBack more tail ∧ (t.m.ctxs[c]).st = .enabled ∧ (t.m.ctxs[c]).queues = x.queues ∧
          (t.m.ctxs[c]).expected = x.expected) ∧
    (frame send = none → Ends (.wordDispatch c) s fun t =>
      (t.m.ctxs[c]).cmdQ = x.cmdQ ∧ (t.m.ctxs[c]).queues = x.queues ∧ (t.m.ctxs[c]).st = .halting ∧ (t.m.ctxs[c]).cause = .fault ∧
        (t.m.ctxs[c]).pendingFault.map (fun f => (f.status, f.detail)) = some (BitVec.ofNat 8 Status.badSlot.code, 0xFF))) ∧
  ∀ (s : State) (c : CtxId) (h : BlockedHead),
    let x := s.m.ctxs[c]
    let heads := s.m.cmdHead c :: allEng.map x.engineHead
    let blocked := heads.filterMap fun k => match k with
      | .blocked b => some b
      | _ => none
    x.st = .enabled → HeadState.free ∉ heads → s.m.nothingRuns c = true → s.m.tokenInTransit c = false → oldestHead blocked = some h →
    Ends (.tokenDeadlock c) s fun t =>
      (t.m.ctxs[c]).st = .halting ∧ (t.m.ctxs[c]).cause = .fault ∧ (t.m.ctxs[c]).heddleDump = blocked.flatMap x.dumpEntry ∧
        (t.m.ctxs[c]).heddleDump.length = 16 * blocked.length ∧
        ((t.m.ctxs[c]).pendingFault.map fun f => (f.status, f.detail, f.eng, f.wordSeq)) =
          some (BitVec.ofNat 8 Status.tokenDeadlock.code, BitVec.ofNat 32 (blocked.map fun b => 2 ^ b.eng).sum, h.eng, h.seq) ∧
        (t.m.ctxs[c]).heddle = x.heddle ∧ OtherCtxs c s t ∧
        Only (fun a b => { a with ctxs := b.ctxs, log := b.log, counters := b.counters }) s t

namespace Sys2Proof.Claims

/-- What the emit of word v leaves: its token in every target table, its WORD record where it asks for one and no abort has written it,
and it counts as fired. -/
def Fired (s t : State) (c : CtxId) (v : WordRec) : Prop :=
  let x := s.m.ctxs[c]
  (t.m.ctxs[c]).heddle = (x.emit v.syncTargets.toNat v.syncId.toNat).heddle ∧
    (t.m.ctxs[c]).recordQ.map (fun r => (r.seq, r.bytes)) = x.recordQ.map (fun r => (r.seq, r.bytes)) ++
      (if (bit v.syncTargets.toNat 6 || v.stepBoundary) && !v.told then
        [(x.recordSeq, recordBytes c x.recordSeq.toNat s.m.now {
          kind := .word, status := 0, wordSeq := v.seq.toNat, tokenId := if v.syncTargets = 0 then 0 else v.syncId.toNat,
          userTag := v.userTag.toNat, step := v.step.toNat, ordered := v.isOrdered })]
      else []) ∧
    (∀ u ∈ (t.m.ctxs[c]).words, u.uid = v.uid → u.syncFired = true) ∧ OtherCtxs c s t ∧
    Only (fun a b => { a with ctxs := b.ctxs }) s t

end Sys2Proof.Claims

/-- R136, R137, R141, R142: the SYNC emit of a word fires once all its slots have committed; an ordered word's emit and WORD record wait
until every earlier word of the context has completed and every record of theirs has been written, and are released then. -/
def Obligations.SyncEmitFiresOnce : Prop :=
  ∀ (s : State) (c : CtxId) (v : WordRec),
    let x := s.m.ctxs[c]
    x.live = true → x.overflows v.syncTargets.toNat v.syncId.toNat = none →
    (x.words.find? (fun w => (decide (w.seq = v.seq) && !w.isOrdered) && x.mayFire w) = some v →
      Ends (.sync c v.seq) s fun t => Fired s t c v) ∧
    (x.words.find? (fun w => w.isOrdered && x.mayFire w) = some v →
      Ends (.orderedCompletionRelease c) s fun t => Fired s t c v) ∧
    (x.mayFire v = true → v.left = []) ∧
    (v.isOrdered = true → x.mayFire v = true → (∀ w ∈ x.words, w.uid < v.uid → w.completed = true) ∧
      ∀ r ∈ x.recordQ, ∀ u, r.uid = some u → v.uid ≤ u)

/-- R134, R135: a slot that starts takes one token for each wait, in one step: for every table and ID the count goes down by the number of
waits that name it, and no other count changes; at its commit it adds 1 to the count of its emit ID in the table of every engine it names,
and to no other count. -/
def Obligations.WaitsAreConsumedAndEmitsAdded : Prop :=
  (∀ (x : Ctx) (ws : List (Nat × Nat)), (∀ w ∈ ws, w.2 < 4096) → x.waitsHold ws = true →
    ∀ e id, id < 4096 → ws.count (e, id) ≤ x.tokens e id ∧ (x.consume ws).tokens e id = x.tokens e id - ws.count (e, id)) ∧
  (∀ (x : Ctx) (mask id e k : Nat), id < 4096 → k < 4096 →
    (x.emit mask id).tokens e k = x.tokens e k + (if bit mask e && decide (e < 6) && decide (k = id) then 1 else 0)) ∧
  (∀ (m : Mach) (c : CtxId) (e : Eng) (q : QSlot) (rest : List QSlot), ((m.ctxs[c]).queues[e.num]) = q :: rest →
    ((m.takeHead c e).ctxs[c]).heddle = ((m.ctxs[c]).consume ((waitIds (ctlOf q.bytes)).map fun t => (e.table, t))).heddle ∧
      ((m.takeHead c e).ctxs[c]).queues[e.num] = rest ∧ ∀ d, d ≠ c → (m.takeHead c e).ctxs[d] = m.ctxs[d]) ∧
  ∀ (m : Mach) (c : CtxId) (q : QSlot), (m.ctxs[c]).overflows (emitTargets (ctlOf q.bytes)) (emitId (ctlOf q.bytes)) = none →
    ((m.commitSlot c q).ctxs[c]).heddle = ((m.ctxs[c]).emit (emitTargets (ctlOf q.bytes)) (emitId (ctlOf q.bytes))).heddle ∧
      ∀ d, d ≠ c → (m.commitSlot c q).ctxs[d] = m.ctxs[d]

namespace Sys2Proof.Claims

/-- A fault with TOKEN_OVERFLOW of context c for token id and table e, met by an engine's slot of word `seq`; no token applied. -/
def Overflowed (m t : Mach) (c : CtxId) (mask id e eng : Nat) (seq : BitVec 16) : Prop :=
  (t.ctxs[c]).heddle = (m.ctxs[c]).heddle ∧ (t.ctxs[c]).st = .halting ∧ (t.ctxs[c]).cause = .fault ∧
    ((t.ctxs[c]).pendingFault.map fun f => (f.status, f.detail, f.eng, f.wordSeq)) =
      some (BitVec.ofNat 8 Status.tokenOverflow.code, BitVec.ofNat 32 (id + e * 2 ^ 12), eng, seq) ∧
    bit mask e = true ∧ 65535 < (m.ctxs[c]).tokens e id + 1 ∧
    ∀ d, d < e → bit mask d = true → (m.ctxs[c]).tokens d id + 1 ≤ 65535

end Sys2Proof.Claims

/-- R139: where an emit of an engine's slot or of a SYNC slot would take the count of a target past 65,535, the token is applied to none
of its targets, and the context faults with TOKEN_OVERFLOW; the fault names the emitting slot, and its detail the token ID and the
lowest-numbered such target. -/
def Obligations.TokenOverflowAppliesToNoTarget : Prop :=
  ∀ (m : Mach) (c : CtxId), (m.ctxs[c]).st = .enabled ∨ ((m.ctxs[c]).st = .halting ∧ (m.ctxs[c]).cause ≠ .fault) →
    (∀ (q : QSlot) (e : Nat),
      let mask := emitTargets (ctlOf q.bytes)
      let id := emitId (ctlOf q.bytes)
      (m.ctxs[c]).overflows mask id = some e → Overflowed m (m.commitSlot c q) c mask id e q.eng.num.val q.seq) ∧
    ∀ (v : WordRec) (e : Nat),
      (m.ctxs[c]).overflows v.syncTargets.toNat v.syncId.toNat = some e →
        Overflowed m (m.fireWord c v) c v.syncTargets.toNat v.syncId.toNat e 7 v.seq

/-! ### Control of a context (R143 to R151), its windows (R81, R87, R88), its records (R284, R285) -/

/-- R144: what a write to token_post does: it adds its count to the named entry in the ENABLED and HALTED (halt) states; a write that
breaks one of the five bounds is refused with 0x0609_0030, one in any other state with 0x0800_0022, and neither changes anything. In QUIET
it wakes the module first; in STANDBY and MGMT_ONLY it is refused with 0x0800_0022 (R385). -/
def Obligations.TokenPostAddsToOneEntry : Prop :=
  ∀ (s : State) (ch : Channel) (c : CtxId) (data : Bytes), Reaches s ch (ctxIdx c 3) 5 data →
    let x := s.m.ctxs[c]
    let n := leNat data
    let k := bits n 31 16
    let e := bits n 14 12
    let id := bits n 11 0
    let bad := 65535 < x.tokens e id + k ∨ k = 0 ∨ 6 ≤ e ∨ bit n 15 = true ∨ (s.m.grade = .n ∧ e = 4)
    let open_ := x.st = .enabled ∨ (x.st = .halted ∧ x.cause = .halt)
    (bad → Ends (.tokenPost ch c data) s (RefusedWith abRange ch (ctxIdx c 3) 5 s)) ∧
    (¬bad → ¬open_ → Ends (.tokenPost ch c data) s (RefusedWith abState ch (ctxIdx c 3) 5 s)) ∧
    (¬bad → open_ → s.m.pwr.modState = .standby ∨ s.m.pwr.modState = .mgmtOnly →
      Ends (.tokenPost ch c data) s (RefusedWith abState ch (ctxIdx c 3) 5 s)) ∧
    (¬bad → open_ → (s.m.pwr.modState = .active ∨ s.m.pwr.modState = .idle ∨ s.m.pwr.modState = .quiet) →
      Ends (.tokenPost ch c data) s fun t =>
        (∀ d j, j < 4096 → (t.m.ctxs[c]).tokens d j = x.tokens d j + if d = e ∧ j = id then k else 0) ∧
          Accepted ch (ctxIdx c 3) 5 t ∧ OtherCtxs c s t ∧ SameMemory s t ∧ t.m.dict = s.m.dict)

/-- R146, R148, R149: a write to halt moves an ENABLED context to HALTING, and leaves a context in any other state as it is; a write to
resume, accepted only in HALTED after a halt, makes the context ENABLED and loses no state of it: its ready heads join the line of R132
again, and nothing else of it changes. Once every started slot has committed or stopped, a HALTING context enters HALTED, or, where a
fault is being contained, writes one FAULT record, holds it in fault_record, and enters FAULTED; before that it stays as it is. -/
def Obligations.HaltRestAndResumeKeepTheContext : Prop :=
  (∀ (s : State) (ch : Channel) (c : CtxId),
    let x := s.m.ctxs[c]
    let frame := fun t => OtherCtxs c s t ∧ Only (fun a b => { a with ctxs := b.ctxs, log := b.log, counters := b.counters, out := b.out }) s t
    (Reaches s ch (ctxIdx c 3) 1 [1] → x.st = .enabled → Ends (.halt ch c [1]) s fun t =>
      t.m.ctxs[c] = { x with st := .halting, cause := .halt, line := [] } ∧ Accepted ch (ctxIdx c 3) 1 t ∧ frame t) ∧
    (Reaches s ch (ctxIdx c 3) 1 [1] → x.st ≠ .enabled → Ends (.halt ch c [1]) s fun t =>
      t.m.ctxs = s.m.ctxs ∧ Accepted ch (ctxIdx c 3) 1 t) ∧
    (Reaches s ch (ctxIdx c 3) 2 [1] → x.st = .halted → x.cause = .halt → (s.m.pwr.modState = .active ∨ s.m.pwr.modState = .idle) →
      Ends (.resume ch c [1]) s fun t =>
        t.m.ctxs[c] = ({ x with st := .enabled, cause := .none } : Ctx).noted s.m.nextInLine ∧ Accepted ch (ctxIdx c 3) 2 t ∧ frame t) ∧
    (Reaches s ch (ctxIdx c 3) 2 [1] → ¬(x.st = .halted ∧ x.cause = .halt) →
      Ends (.resume ch c [1]) s (RefusedWith abState ch (ctxIdx c 3) 2 s))) ∧
  ∀ (s : State) (c : CtxId),
    let x := s.m.ctxs[c]
    (x.st = .halting → s.m.drained c = true → x.pendingFault = none → Ends (.contextHalted c) s fun t =>
      t.m.ctxs[c] = { x with st := .halted, line := [] } ∧ OtherCtxs c s t ∧
        Only (fun a b => { a with ctxs := b.ctxs, log := b.log, counters := b.counters }) s t) ∧
    (∀ f, x.st = .halting → s.m.drained c = true → x.pendingFault = some f → Ends (.contextHalted c) s fun t =>
      (t.m.ctxs[c]).st = .faulted ∧ (t.m.ctxs[c]).pendingFault = none ∧ (t.m.ctxs[c]).recordSeq = x.recordSeq + 1 ∧
        (t.m.ctxs[c]).recordQ = x.recordQ ++ [⟨x.recordSeq, none, (t.m.ctxs[c]).faultRec⟩] ∧
        (t.m.ctxs[c]).faultRec = recordBytes c x.recordSeq.toNat f.ts {
          kind := .fault, status := f.status.toNat, eng := f.eng, wordSeq := f.wordSeq.toNat, tokenId := f.tokenId.toNat,
          step := f.step.toNat, ordered := f.ordered, payload := faultPayload x.lastCommitted f } ∧ OtherCtxs c s t ∧
        t.m.dram = s.m.dram ∧ t.m.dict = s.m.dict) ∧
    (s.m.drained c = false → exec (.contextHalted c) s = .next s)

namespace Sys2Proof.Claims

/-- No slot of some words of a context is left, started or queued, in any engine. -/
def SlotsGone (t : State) (c : CtxId) (gone : List Nat) : Prop :=
  (∀ e : Eng, ∀ q ∈ (t.m.ctxs[c]).queues[e.num], q.uid ∉ gone) ∧ (∀ j ∈ t.m.mv.jobs, j.c = c → j.slot.uid ∉ gone) ∧
    (∀ j ∈ t.m.arrays, j.c = c → j.slot.uid ∉ gone) ∧ (∀ j ∈ t.m.vecs, j.c = c → j.slot.uid ∉ gone) ∧
    (∀ j ∈ t.m.audits, j.c = c → j.slot.uid ∉ gone) ∧ (∀ j ∈ t.m.drover.jobs, j.c = c → j.slot.uid ∉ gone) ∧
    ∀ k ∈ t.m.shut.colls, k.key.ctx = c → k.drover = false → k.slot.uid ∉ gone

/-- The records of an abort from word w: one WORD record for each of some words, in their order, then the ABORT record with the number of
undispatched words discarded. -/
def abortRecords (c : CtxId) (x : Ctx) (now : Nat) (w : BitVec 16) (told : List WordRec) (count : Nat) (late : Bool) : List Record :=
  let seq := fun (i : Nat) => x.recordSeq + BitVec.ofNat 32 i
  (told.zipIdx.map fun p => ⟨seq p.2, none, recordBytes c (seq p.2).toNat now (abortRecord p.1)⟩) ++
    [⟨seq told.length, none, recordBytes c (seq told.length).toNat now {
      kind := .abort, status := 0, wordSeq := w.toNat, userTag := count, step := x.step.toNat, late := late }⟩]

end Sys2Proof.Claims

/-- R150: an abort of word w stops the words from w onward. The undispatched ones leave the command queue, and of the dispatched ones
every slot that has not committed, started or queued; a WORD record for each of the latter and for each complete one from w onward still
held, then one ABORT record with the number of undispatched words discarded, join the record queue; the context goes on to HALTING, or
from a halt's HALTED to the abort's. An abort that finds nothing to stop is late and leaves the context in its state; one that names a
word before last_committed_seq changes nothing but its late ABORT record. In DISABLED and RESETTING, and in STANDBY and MGMT_ONLY (R385),
it is refused. -/
def Obligations.AbortDiscardsLaterWords : Prop :=
  ∀ (s : State) (ch : Channel) (c : CtxId) (w : BitVec 16), Reaches s ch (ctxIdx c 3) 3 (natLe 2 w.toNat) →
    let x := s.m.ctxs[c]
    let cut := cutQueue w x.cmdQ
    let gone := (x.words.filter fun v => fromSeq w v.seq && decide (v.left ≠ [])).map WordRec.uid
    let told := (x.lastWord.toList ++ x.words).filter fun v => fromSeq w v.seq
    let late := decide (gone = []) && decide (cut.2 = 0)
    let state := match x.st, x.cause with
      | .enabled, _ | .halting, .halt => (CtxState.halting, HaltCause.abort)
      | .halted, .halt => (.halted, .abort)
      | a, b => (a, b)
    let taken := x.st ≠ .disabled ∧ x.st ≠ .resetting ∧ (s.m.pwr.modState = .active ∨ s.m.pwr.modState = .idle)
    (taken → seqBefore 32767 w x.lastCommitted = false → Ends (.abortFromSeq ch c (natLe 2 w.toNat)) s fun t =>
      (t.m.ctxs[c]).cmdQ = cut.1 ∧ SlotsGone t c gone ∧ (∀ v ∈ (t.m.ctxs[c]).words, fromSeq w v.seq = true → v.left = []) ∧
        (t.m.ctxs[c]).recordQ = x.recordQ ++ abortRecords c x s.m.now w told cut.2 late ∧
        ((t.m.ctxs[c]).st, (t.m.ctxs[c]).cause) = (if late then (x.st, x.cause) else state) ∧
        Accepted ch (ctxIdx c 3) 3 t ∧ OtherCtxs c s t ∧ t.m.dict = s.m.dict) ∧
    (taken → seqBefore 32767 w x.lastCommitted = true → Ends (.abortFromSeq ch c (natLe 2 w.toNat)) s fun t =>
      t.m.ctxs[c] = ({ x with
          recordQ := x.recordQ ++ abortRecords c x s.m.now w [] 0 true, recordSeq := x.recordSeq + 1 } : Ctx).noted s.m.nextInLine ∧
        Accepted ch (ctxIdx c 3) 3 t ∧ OtherCtxs c s t ∧
        Only (fun a b => { a with ctxs := b.ctxs, log := b.log, counters := b.counters, out := b.out }) s t) ∧
    (x.st = .disabled ∨ x.st = .resetting ∨ s.m.pwr.modState = .standby ∨ s.m.pwr.modState = .mgmtOnly →
      Ends (.abortFromSeq ch c (natLe 2 w.toNat)) s (RefusedWith abState ch (ctxIdx c 3) 3 s))

/-- R146, R151, R281: a context reset empties the command queue and every engine queue, takes the context's QPs to RESET and puts the
context in RESETTING; it ends when no token of the context is left in transit, and its end zeroes the Heddle, loads the expected sequence
from next_expected_seq, starts record_seq at 0 and leaves the context ENABLED, or DISABLED where context_enable is 0 or DRAM is not in
service (log 33). Enabling a DISABLED context needs valid windows, DRAM in service and no module-scope fault; disabling a context empties
its queues, but leaves one in RESETTING to finish its reset. -/
def Obligations.ContextResetEnableDisable : Prop :=
  ∀ (s : State) (ch : Channel) (c : CtxId),
    let x := s.m.ctxs[c]
    let emptied := fun (t : State) => (t.m.ctxs[c]).cmdQ = [] ∧ (t.m.ctxs[c]).words = [] ∧ (∀ e : Fin 7, (t.m.ctxs[c]).queues[e] = []) ∧
      ∀ q : QpNo, (t.m.ctxs[c]).qps[q].st = .reset
    (Reaches s ch (ctxIdx c 3) 4 [1] → Ends (.contextReset ch c [1]) s fun t =>
      (t.m.ctxs[c]).st = .resetting ∧ emptied t ∧ Accepted ch (ctxIdx c 3) 4 t ∧ OtherCtxs c s t ∧ t.m.dict = s.m.dict) ∧
    (x.st = .resetting → s.m.tokenInTransit c = false → Ends (.contextResetDone c) s fun t =>
      (t.m.ctxs[c]).st = (if s.m.num (ctxIdx c 0) 2 = 1 ∧ 2 ≤ s.m.mem.dramState then CtxState.enabled else .disabled) ∧
        (∀ e id, (t.m.ctxs[c]).tokens e id = 0) ∧ (t.m.ctxs[c]).expected = BitVec.ofNat 16 (s.m.num (ctxIdx c 0) 4) ∧
        (t.m.ctxs[c]).recordSeq = 0 ∧ OtherCtxs c s t ∧
        Only (fun a b => { a with ctxs := b.ctxs, log := b.log, counters := b.counters }) s t) ∧
    (x.st = .resetting → s.m.tokenInTransit c = true → exec (.contextResetDone c) s = .next s) ∧
    (Reaches s ch (ctxIdx c 0) 2 [1] → x.st = .disabled → (s.m.pwr.modState = .active ∨ s.m.pwr.modState = .idle) →
      let may := s.m.pwr.moduleScopeFault = false ∧ s.m.windowsOk c = true ∧ s.m.mem.dramState = 2
      (may → Ends (.contextEnable ch c) s fun t =>
        t.m.ctxs[c] = ({ x with st := .enabled, cause := .none } : Ctx).noted s.m.nextInLine ∧ t.m.num (ctxIdx c 0) 2 = 1 ∧
          Accepted ch (ctxIdx c 0) 2 t ∧ OtherCtxs c s t ∧ SameMemory s t) ∧
      (¬may → Ends (.contextEnable ch c) s (RefusedWith abState ch (ctxIdx c 0) 2 s))) ∧
    (Reaches s ch (ctxIdx c 0) 2 [0] → Ends (.contextDisable ch c) s fun t =>
      t.m.num (ctxIdx c 0) 2 = 0 ∧ Accepted ch (ctxIdx c 0) 2 t ∧ OtherCtxs c s t ∧
        (x.st = .disabled ∨ x.st = .resetting → t.m.ctxs = s.m.ctxs) ∧
        (x.st ≠ .disabled → x.st ≠ .resetting → (t.m.ctxs[c]).st = .disabled ∧ emptied t))

/-- R81, R87, R88: a write to a window object that gains nothing takes effect at once; one that gains a range waits until the range is
zeroed, and is then in force, with every byte of the gained range reading 0, and answered. A value that is not aligned, or makes the
window overlap another's or the pool and Drover regions, is refused with 0x0609_0030; a write in another state than DISABLED, HALTED or
with all engines idle, or while one is being zeroed (the model's choice, log 34), with 0x0800_0022. -/
def Obligations.GainedWindowRangesReadZero : Prop :=
  ∀ (s : State) (ch : Channel) (c : CtxId) (sub : Nat) (data : Bytes), 1 ≤ sub → sub ≤ 4 →
    let n := leNat data
    let w := s.m.windowWith c sub n
    let bad := if sub ≤ 2 then !s.m.spadWindowOk c w.2 else decide (n % 2 ^ 21 ≠ 0) || !s.m.dramWindowOk c w.2
    (Reaches s ch (ctxIdx c 4) sub data → bad = false → s.m.windowFree c = true → (s.m.ctxs[c]).windowPending = none →
      Ends (.windowWrite ch c sub data) s fun t =>
        (gained w.1 w.2 = [] → t.m.num (ctxIdx c 4) sub = n ∧ Accepted ch (ctxIdx c 4) sub t) ∧
        (gained w.1 w.2 ≠ [] → t.m.dict = s.m.dict ∧ t.m.out = s.m.out ∧
          (t.m.ctxs[c]).windowPending = some (wroteOut ch (ctxIdx c 4) sub 0, sub, n)) ∧
        OtherCtxs c s t ∧ SameMemory s t) ∧
    (Reaches s ch (ctxIdx c 4) sub data → bad = true → Ends (.windowWrite ch c sub data) s (RefusedWith abRange ch (ctxIdx c 4) sub s)) ∧
    (Reaches s ch (ctxIdx c 4) sub data → bad = false → s.m.windowFree c = false ∨ (s.m.ctxs[c]).windowPending ≠ none →
      Ends (.windowWrite ch c sub data) s (RefusedWith abState ch (ctxIdx c 4) sub s)) ∧
    (∀ answer v, (s.m.ctxs[c]).windowPending = some (answer, sub, v) → Ends (.windowZeroDone c) s fun t =>
      let g := s.m.windowWith c sub v
      t.m.num (ctxIdx c 4) sub = v ∧ (t.m.ctxs[c]).windowPending = none ∧
        (answer.qp = none → answer.plain = false → t.m.out.head? = some answer ∧ OtherCtxs c s t) ∧
        (∀ r ∈ gained g.1 g.2, ∀ a, r.1 ≤ a → a < r.2 →
          if sub ≤ 2 then ∀ die < 4, a < 2 ^ 29 → t.m.spadRead (die * 2 ^ 29 + a) 1 = [0] else t.m.dramRead a 1 = [0]) ∧
        (2 < sub → t.m.spad = s.m.spad) ∧ (sub ≤ 2 → ∀ a k, t.m.dramRead a k = s.m.dramRead a k))

/-- R284, R285: the oldest waiting record goes to its place in the host's ring where the ring has room for it; a ring-credit SEND moves
the count of records the host has consumed; a full record queue raises an EMCY and goes on waiting. -/
def Obligations.RecordsGoToTheRingInOrder : Prop :=
  ∀ (s : State) (c : CtxId),
    let x := s.m.ctxs[c]
    let n := s.m.ringEntries c
    (∀ r rest, x.recordQ = r :: rest → s.m.hostUp = true → (x.qps[qComp]).st = .rts → s.m.reachable [101, 126, 132] = true →
      s.m.hostPaused 0 = false → (r.seq - x.consumed).toNat < n →
      Ends (.recordWrite c) s fun t =>
        (t.m.ctxs[c]).recordQ = rest ∧ (t.m.ctxs[c]).unacked = x.unacked ++ [r] ∧
          Sent (.rdmaWriteImm c (s.m.num (qpIdx c qComp) 0x10 + r.seq.toNat % n * 64) (s.m.num (qpIdx c qComp) 0x11) r.seq r.bytes) s t ∧
          OtherCtxs c s t ∧ Only (fun a b => { a with ctxs := b.ctxs, out := b.out, islands := b.islands }) s t) ∧
    (∀ k : BitVec 32, QpOpen s c qComp 8 0 → (k - x.consumed).toNat ≤ (x.nextRecord - x.consumed).toNat →
      Ends (.ringCredit c (natLe 4 k.toNat ++ [0, 0, 0, 0]) false) s fun t =>
        (t.m.ctxs[c]).consumed = k ∧ (t.m.ctxs[c]).recordQ = x.recordQ ∧ Sent (.rcAck c qComp) s t ∧ OtherCtxs c s t) ∧
    (x.recordRoom = false → Ends (.hostRingStallTimeout c) s fun t =>
      t.m.ctxs = s.m.ctxs ∧ t.m.mgmt.history.head? = some (BitVec.ofNat 32 (c.val * 65536 + 0xFF08)) ∧ SameMemory s t)

/-! ### The engines MOVE, ARRAY, VECTOR, AUDIT: start, work, commit -/

namespace Sys2Proof.Claims

/-- The head slot of an engine queue has left it, and the tokens it waited for are consumed (R134). -/
def HeadTaken (s t : State) (c : CtxId) (e : Eng) : Prop :=
  (t.m.ctxs[c]).queues[e.num] = ((s.m.ctxs[c]).queues[e.num]).tail ∧
    ∀ q ∈ ((s.m.ctxs[c]).queues[e.num]).head?,
      (t.m.ctxs[c]).heddle = ((s.m.ctxs[c]).consume ((waitIds (ctlOf q.bytes)).map fun w => (e.table, w))).heddle

/-- A slot has committed: its token is in every target table, and its word waits for that engine no more (R135, R147). -/
def Committed (s t : State) (c : CtxId) (q : QSlot) : Prop :=
  (t.m.ctxs[c]).heddle = ((s.m.ctxs[c]).emit (emitTargets (ctlOf q.bytes)) (emitId (ctlOf q.bytes))).heddle ∧
    (∀ w ∈ (t.m.ctxs[c]).words, w.uid = q.uid → q.eng ∉ w.left) ∧ OtherCtxs c s t

/-- No target of a slot's emit would overflow (R139). -/
def EmitFits (m : Mach) (c : CtxId) (q : QSlot) : Prop :=
  (m.ctxs[c]).overflows (emitTargets (ctlOf q.bytes)) (emitId (ctlOf q.bytes)) = none

/-- A context has started to halt with a fault of one status and detail. -/
def Faulting (t : State) (c : CtxId) (st : Status) (detail : Nat) : Prop :=
  (t.m.ctxs[c]).st = .halting ∧ (t.m.ctxs[c]).cause = .fault ∧
    ((t.m.ctxs[c]).pendingFault.map fun f => (f.status, f.detail)) = some (BitVec.ofNat 8 st.code, BitVec.ofNat 32 detail)

/-- The eight rows that start a MOVE slot. -/
def moveRows : List (MoveTy × (CtxId → Instr)) :=
  [(.load, .load), (.store, .store), (.copy, .copy), (.dcopy, .dcopy), (.put, .put), (.get, .get), (.hostIn, .hostIn),
   (.hostOut, .hostOut)]

end Sys2Proof.Claims

/-- R94, R96, R97, R103, R134: a LOAD, STORE, COPY, DCOPY, PUT, GET, HOST_IN or HOST_OUT takes its slot from the head of the MOVE queue,
consumes its tokens and makes it active, its index values captured, every piece of its transfer still to come and no byte moved; a slot
whose rank or QP is out of reach, outside its window or with a bad index faults its context and is not made active. -/
def Obligations.MoveSlotBecomesActive : Prop :=
  ∀ (s : State) (c : CtxId) (q : QSlot) (row : MoveTy × (CtxId → Instr)), row ∈ moveRows →
    let v := parseMove q.bytes
    let m := (s.m.takeHead c .move).wake v.startPath
    s.m.startable c .move = some q → v.ty = some row.1 → s.m.moveStarts c v = true →
    (m.checkFar c v = none → m.checkMove c v = none → Ends (row.2 c) s fun t =>
      HeadTaken s t c .move ∧
        t.m.mv = { s.m.mv with jobs := s.m.mv.jobs ++ [{
          c := c, slot := q, nextPiece := 0, pieces := v.pieces, win := 0, outstanding := 0, nextApply := 0,
          srcIx := s.m.indexList v.src v.ends.1, dstIx := s.m.indexList v.dst v.ends.2, tokenSent := false, reserved := 0,
          waitingBpm := false, failed := none }] } ∧
        OtherCtxs c s t ∧ SameMemory s t ∧
        Only (fun a b => { a with
          ctxs := b.ctxs, islands := b.islands, mv := b.mv, mem := b.mem, log := b.log, counters := b.counters }) s t) ∧
    (∀ st d, m.checkFar c v = some (st, d) ∨ (m.checkFar c v = none ∧ m.checkMove c v = some (st, d)) → Ends (row.2 c) s fun t =>
      HeadTaken s t c .move ∧ Faulting t c st d ∧ OtherCtxs c s t ∧ t.m.mv = s.m.mv ∧ SameMemory s t)

/-- R80, R94, R96, R105, R289: the piece of a COPY or LOAD whose one part has no uncorrectable error is copied whole: the destination part
reads what the source part read before, every other scratchpad byte and all of DRAM read as before, and the job stands at its next piece.
A piece of a HOST_IN on an open data QP, with its staging buffers free, goes out as an RDMA READ of the host range of the piece, and the
job waits for one more answer. `m` is the machine with the upsets that befall its memories meanwhile. -/
def Obligations.MovePiecesCopyOrAsk : Prop :=
  (∀ (s : State) (chan : Fin 8) (ev : MemEvents) (j : MoveJob) (g : Seg),
    let m := s.m.memEvents ev
    let v := parseMove j.slot.bytes
    let src := j.srcRow v g.row + g.off
    let dst := j.dstRow v g.row + g.off
    m.nextJob = some j → v.piece j.nextPiece = [g] → v.acc = false → m.spadPartBad dst g.len = none →
    let moved := fun (b : Bytes) (t : State) =>
      t.m.spadRead dst g.len = b ∧ (∀ a, (a < dst ∨ dst + g.len ≤ a) → t.m.spadRead a 1 = s.m.spadRead a 1) ∧
        (∀ a n, t.m.dramRead a n = s.m.dramRead a n) ∧
        (∃ k, t.m.moveJob j.c j.slot.uid = some k ∧ k.nextPiece = j.nextPiece + 1 ∧ k.outstanding = j.outstanding) ∧
        t.m.ctxs = s.m.ctxs ∧ t.m.dict = s.m.dict
    (v.ty = some .copy → m.spadBad src g.len = none → Ends (.movePiece ⟨chan, ev⟩) s (moved (s.m.spadRead src g.len))) ∧
    (v.ty = some .load → m.dramBad src g.len = none → Ends (.movePiece ⟨chan, ev⟩) s (moved (s.m.dramRead src g.len)))) ∧
  ∀ (s : State) (chan : Fin 8) (ev : MemEvents) (j : MoveJob) (g : Seg) (rest : List Seg),
    let v := parseMove j.slot.bytes
    let q := qData v.far
    let va := v.src.hostVa + (g.row * v.rowLen + g.off)
    let n := segBytes (g :: rest)
    (s.m.memEvents ev).nextJob = some j → v.ty = some .hostIn → v.piece j.nextPiece = g :: rest → s.m.hostUp = true →
    ((s.m.ctxs[j.c]).qps[q]).st = .rts → (s.m.pools[(1 : PoolId)]).waiting = [] → s.m.bpmFits 1 rqMove (cdiv n 16384) = true →
    Ends (.movePiece ⟨chan, ev⟩) s fun t =>
      Sent (.rdmaReadReq j.c q va v.src.indexBound n) s t ∧
        (t.m.ctxs[j.c]).qps[q].outstanding =
          (s.m.ctxs[j.c]).qps[q].outstanding ++ [.read j.slot.uid j.nextPiece va v.src.indexBound n] ∧
        (∃ k, t.m.moveJob j.c j.slot.uid = some k ∧ k.nextPiece = j.nextPiece + 1 ∧ k.outstanding = j.outstanding + 1) ∧
        OtherCtxs j.c s t ∧ SameMemory s t

/-- R103, R106, R139, R147, R260: a MOVE slot all of whose bytes are visible commits: it is active no more and emits its token; before
that nothing happens. A PUT or GET packet that nobody has answered is sent again with one more resend counted, or none while the route is
REBUILDING; once move_retry_limit resends have passed its slot faults with TIMEOUT instead, and with LINK_LOST where no route is left. -/
def Obligations.MoveCompletesOrIsResent : Prop :=
  (∀ (s : State) (c : CtxId) (w : BitVec 16) (j : MoveJob),
    s.m.mv.jobs.find? (fun k => decide (k.c = c ∧ k.slot.seq = w)) = some j →
    (s.m.moveDone j = true → s.m.mayCommit c j.slot = true → EmitFits s.m c j.slot → Ends (.moveComplete c w) s fun t =>
      Committed s t c j.slot ∧ (∀ k ∈ t.m.mv.jobs, ¬(k.c = c ∧ k.slot.uid = j.slot.uid)) ∧ SameMemory s t) ∧
    (s.m.moveDone j = false → exec (.moveComplete c w) s = .next s)) ∧
  ∀ (s : State) (tag : BitVec 16) (f : Flight),
    s.m.mv.flights.find? (fun g => decide (g.tag = tag) && !g.held && g.answer.isNone) = some f →
    s.m.reachable f.owner.engine = true →
    let route := s.m.canReach (hdrOf f.pkt).cls (hdrOf f.pkt).dst
    let late := s.m.num 0x2983 2 ≤ f.resends
    let again := fun (flights : List Flight) (t : State) => t.m.mv.flights = flights ∧
      t.m.net = (s.m.inject (hdrOf f.pkt) f.pkt.payload).net ∧ t.m.ctxs = s.m.ctxs ∧ SameMemory s t
    (route = true → s.m.net.rebuilding = false → ¬late → Ends (.moveRetryTimeout tag) s
      (again (s.m.mv.flights.map fun g => if g.tag = tag then { g with resends := g.resends + 1 } else g))) ∧
    (route = true → s.m.net.rebuilding = true → Ends (.moveRetryTimeout tag) s (again s.m.mv.flights)) ∧
    (∀ c uid j, f.owner = .slot c uid → s.m.moveJob c uid = some j → (s.m.ctxs[c]).st = .enabled →
      let over_ := fun (st : Status) (d : Nat) (t : State) =>
        Faulting t c st d ∧ OtherCtxs c s t ∧ ∀ k ∈ t.m.mv.jobs, ¬(k.c = c ∧ k.slot.uid = uid)
      (route = true → s.m.net.rebuilding = false → late →
        Ends (.moveRetryTimeout tag) s (over_ .timeout (objDetail 0x2983 2))) ∧
      (route = false → Ends (.moveRetryTimeout tag) s (over_ .linkLost f.rank)))

namespace Sys2Proof.Claims

/-- The step count of one ARRAY slot has gone up by one row step. -/
def RowsDone (s t : State) (c : CtxId) (uid : Nat) : Prop :=
  t.m.arrays = s.m.arrays.map fun k => if k.c = c ∧ k.slot.uid = uid then { k with done := k.done + 1 } else k

end Sys2Proof.Claims

/-- R22 to R24, R55 to R57, R60, R73, R75, R134, R158: an ARRAY slot that wins the Loom leaves its queue and starts with no row step done;
a running one does one row step per row asked for, which changes only scratchpad bytes and the take-up stream; a parity error of a Loom
island faults it. One that must give way is suspended, its 64-byte resume record standing at the start of the save area of both lower dies
and its stationary banks given up; when the Loom is free for its class and it has the turn it resumes where it stood, or faults where its
window has gone. -/
def Obligations.ArraySlotStartsAdvancesAndYields : Prop :=
  (∀ (s : State) (c : CtxId),
    (∀ q rows, s.m.arrayRunning c = none → s.m.arrayReady c = some q → s.m.loomTakes c q = true →
      let a := parseArray q.bytes
      let m := (s.m.takeHead c .array).wake a.path
      m.loomRefused = none → m.checkArray c a = none → Ends (.array c rows none) s fun t =>
        HeadTaken s t c .array ∧ t.m.arrays = s.m.arrays ++
            [⟨c, q, 0, a.total s.m.grade, false, false, [], a.reads.map fun r => (r.1, s.m.spadRead r.1 r.2)⟩] ∧
          t.m.lastLoom = c ∧ OtherCtxs c s t ∧ SameMemory s t ∧
          Only (fun a b => { a with
            ctxs := b.ctxs, islands := b.islands, arrays := b.arrays, lastLoom := b.lastLoom, mem := b.mem, log := b.log,
            counters := b.counters }) s t) ∧
    (∀ j m', s.m.arrayRunning c = some j → s.m.suspendDue j = false → s.m.tilesOwed loomIslands = false →
      s.m.reachable (parseArray j.slot.bytes).path = true →
      (s.m.wake (parseArray j.slot.bytes).path).rowStep j = .done m' → Ends (.array c 1 none) s fun t =>
        RowsDone s t c j.slot.uid ∧ t.m.spad = m'.spad ∧ (∀ a n, t.m.dramRead a n = s.m.dramRead a n) ∧ t.m.ctxs = s.m.ctxs ∧
          t.m.dict = s.m.dict) ∧
    (∀ j i rows, s.m.arrays.find? (fun k => decide (k.c = c) && !k.suspended) = some j → (s.m.ctxs[c]).st = .enabled →
      i.val < 92 → i.val % 23 < 9 → Ends (.array c rows (some i)) s fun t =>
        Faulting t c .uncorrectable i.val ∧ (∀ k ∈ t.m.arrays, ¬(k.c = c ∧ k.slot.uid = j.slot.uid)) ∧ OtherCtxs c s t ∧
          t.m.dram = s.m.dram)) ∧
  ∀ (s : State) (c : CtxId) (j : ArrayJob),
    let put := fun (b : Bool) (t : State) => t.m.arrays.map (fun k => (k.c, k.slot, k.done, k.total, k.suspended)) =
      s.m.arrays.map fun k => (k.c, k.slot, k.done, k.total, if k.c = c ∧ k.slot.uid = j.slot.uid then b else k.suspended)
    (s.m.arrayRunning c = some j → s.m.suspendDue j = true → s.m.saveFits c = true → Ends (.arraySuspend c) s fun t =>
      put true t ∧ t.m.spadRead (2 * 2 ^ 29 + s.m.saveArea c) 64 = j.resumeRecord s.m.grade 2 ∧
        t.m.spadRead (3 * 2 ^ 29 + s.m.saveArea c) 64 = j.resumeRecord s.m.grade 3 ∧
        (∀ b, t.m.active = some b ∨ t.m.inactive = some b → ¬(b.c = c ∧ b.uid = j.slot.uid)) ∧ t.m.ctxs = s.m.ctxs ∧
        t.m.dram = s.m.dram) ∧
    (s.m.arrayParked c = some j → s.m.loomFree = true → s.m.arrayMayRun j = true → s.m.loomOpen (parseArray j.slot.bytes) = true →
      s.m.higherReady c (s.m.classOf c) = false → s.m.resumeTurn c (s.m.classOf c) = true →
      (s.m.arrayWindow c (parseArray j.slot.bytes) = true → Ends (.arrayResume c) s fun t =>
        put false t ∧ t.m.lastLoom = c ∧
          Only (fun a b => { a with arrays := b.arrays, lastLoom := b.lastLoom, islands := b.islands }) s t) ∧
      (s.m.arrayWindow c (parseArray j.slot.bytes) = false → (s.m.ctxs[c]).st = .enabled → Ends (.arrayResume c) s fun t =>
        Faulting t c .windowViolation 0 ∧ (∀ k ∈ t.m.arrays, ¬(k.c = c ∧ k.slot.uid = j.slot.uid)) ∧ OtherCtxs c s t))

namespace Sys2Proof.Claims

/-- The rows that start a VECTOR slot, each with its opcode (R170). -/
def vectorRows : List (Nat × (CtxId → Option DieId → Instr)) :=
  [(0x01, .vectorCopy), (0x02, .add), (0x03, .sub), (0x04, .mul), (0x05, .div), (0x06, .fma), (0x07, .axpby), (0x08, .max),
   (0x09, .min), (0x0A, .scale), (0x0B, .cast), (0x0C, .relu), (0x0D, .gelu), (0x0E, .silu), (0x0F, .reluBwd), (0x10, .geluBwd),
   (0x11, .siluBwd), (0x18, .exp), (0x19, .log), (0x1A, .rsqrt), (0x1B, .sqrt), (0x1C, .recip), (0x1D, .tanh), (0x1E, .sigmoid),
   (0x1F, .erf), (0x20, .softmax), (0x21, .layernorm), (0x22, .rmsnorm), (0x23, .rowdot), (0x24, .softmaxBwd)] ++
  [(0x25, .layernormBwd), (0x26, .rmsnormBwd), (0x27, .rsum), (0x28, .rmax), (0x30, .csum), (0x31, .sumsq), (0x40, .adam),
   (0x41, .sgdm), (0x42, .clipFactor), (0x48, .dropout), (0x50, .iadd), (0x51, .isub), (0x52, .imul)]

end Sys2Proof.Claims

/-- R134, R161, R170, R180, R184: each of the 43 VECTOR rows takes the slot of its own opcode from the head of the VECTOR queue; without
take-up it writes, in the scratchpad and nowhere else, what the opcode computes from the sources, the seed and the step; with take-up it
waits for its stream and writes nothing yet. A parity error of a die that runs the slot faults it. -/
def Obligations.VectorSlotComputesItsOpcode : Prop :=
  ∀ (s : State) (c : CtxId) (row : Nat × (CtxId → Option DieId → Instr)), row ∈ vectorRows →
    (∀ q : QSlot,
      let v := parseVec q.bytes
      let m := { ((s.m.takeHead c .vector).wake v.path) with lastVec := c }
      let r := m.readSpads (m.vecReads v) (some c)
      v.opcode = row.1 → s.m.vecReady c = some q → s.m.vecTakes c q = true → m.vecRefused v = none → m.checkVec c v = none →
      (v.takeup = false → m.badSpadIn (m.vecReads v) (m.vecWrites v) = none → Ends (row.2 c none) s fun t =>
        t.m.spad = (r.writeVec c ⟨r, v, none, q.seed.toNat, q.step.toNat⟩).spad ∧ t.m.vecs = s.m.vecs ++ [⟨c, q, true⟩] ∧
          HeadTaken s t c .vector ∧ OtherCtxs c s t ∧ (∀ a n, t.m.dramRead a n = s.m.dramRead a n) ∧
          Only (fun a b => { a with
            ctxs := b.ctxs, islands := b.islands, lastVec := b.lastVec, vecs := b.vecs, spad := b.spad, mem := b.mem, log := b.log,
            counters := b.counters }) s t) ∧
      (v.takeup = true → Ends (row.2 c none) s fun t =>
        t.m.vecs = s.m.vecs ++ [⟨c, q, false⟩] ∧ HeadTaken s t c .vector ∧ OtherCtxs c s t ∧
          Only (fun a b => { a with
            ctxs := b.ctxs, islands := b.islands, lastVec := b.lastVec, vecs := b.vecs, takeups := b.takeups }) s t)) ∧
    (∀ (j : VecJob) (d : DieId),
      s.m.vecs.find? (fun k => decide (k.c = c) && decide ((parseVec k.slot.bytes).opcode = row.1)) = some j →
      (parseVec j.slot.bytes).runDies.contains d.val = true → (s.m.ctxs[c]).st = .enabled → Ends (row.2 c (some d)) s fun t =>
        Faulting t c .uncorrectable (23 * d.val + 17) ∧ (∀ k ∈ t.m.vecs, ¬(k.c = c ∧ k.slot.uid = j.slot.uid)) ∧ OtherCtxs c s t ∧
          t.m.dram = s.m.dram)

/-- R127, R333, R334: DIGEST_WORDS, DIGEST_REGION and SNAP_COUNTERS start one per context, with the digest their rule names: of the words,
of the region's bytes as they read at the start, or none; none writes anything before its commit. -/
def Obligations.AuditSlotStarts : Prop :=
  ∀ (s : State) (c : CtxId) (q : QSlot),
    let a := parseAudit q.bytes
    let m := (s.m.takeHead c .audit).wake a.path
    let started := fun (d : Bytes) (t : State) => t.m.audits = s.m.audits ++ [⟨c, q, d⟩] ∧ HeadTaken s t c .audit ∧ OtherCtxs c s t ∧
      SameMemory s t ∧ t.m.dict = s.m.dict ∧ t.m.out = s.m.out
    s.m.startable c .audit = some q → s.m.audits.any (fun j => decide (j.c = c)) = false → s.m.works = true →
    s.m.reachable a.path = true → m.auditWindow c a = true →
    (a.op = 0 → Ends (.digestWords c) s (started (sha3 q.words))) ∧
    (a.op = 1 → (if a.dram then m.dramBad a.addr a.length else m.spadBad a.addr a.length) = none →
      Ends (.digestRegion c) s (started (sha3 ((if a.withWords then sha3 q.words else []) ++
        if a.dram then s.m.dramRead a.addr a.length else s.m.spadRead a.addr a.length)))) ∧
    (a.op = 2 → Ends (.snapCounters c) s (started []))

/-- R147, R154, R181, R333: a FROZEN slot commits at its start and writes nothing; an ARRAY slot whose row steps are all done commits and
leaves the Loom; a VECTOR slot that has computed its results commits and is done, one with take-up computes from its whole stream first; a
digest joins the record queue in one DIGEST record (with a SLOT record behind it where the host is a target), and the counters of
SNAP_COUNTERS stand in 2,048 bytes of scratchpad at the slot's address, nothing else of memory changing. -/
def Obligations.ArrayVectorAndAuditSlotsCommit : Prop :=
  (∀ (s : State) (c : CtxId),
    (∀ q, s.m.startable c .array = some q → (parseArray q.bytes).frozen = true → s.m.mayCommit c q = true →
      s.m.arrays.any (fun j => decide (j.c = c) && decide (j.done < j.total)) = false →
      s.m.arrayWindow c (parseArray q.bytes) = true → EmitFits (s.m.takeHead c .array) c q → Ends (.frozen c) s fun t =>
        (t.m.ctxs[c]).queues[Eng.array.num] = ((s.m.ctxs[c]).queues[Eng.array.num]).tail ∧
          (t.m.ctxs[c]).heddle = (((s.m.takeHead c .array).ctxs[c]).emit (emitTargets (ctlOf q.bytes)) (emitId (ctlOf q.bytes))).heddle ∧
          t.m.arrays = s.m.arrays ∧ OtherCtxs c s t ∧ SameMemory s t) ∧
    (∀ j, s.m.arrays.find? (fun k => decide (k.c = c) && decide (k.done = k.total) && !k.suspended) = some j →
      s.m.mayCommit c j.slot = true → EmitFits s.m c j.slot → Ends (.arrayCommit c) s fun t =>
        Committed s t c j.slot ∧ t.m.arrays = s.m.arrays.filter (fun k => !decide (k.c = c ∧ k.slot.uid = j.slot.uid)) ∧
          t.m.dram = s.m.dram ∧ (j.tainted = false → (parseArray j.slot.bytes).partials = [] → t.m.spad = s.m.spad))) ∧
  (∀ (s : State) (c : CtxId) (j : VecJob), s.m.vecs.find? (fun k => decide (k.c = c)) = some j → s.m.mayCommit c j.slot = true →
    EmitFits s.m c j.slot →
    let gone := fun (t : State) => t.m.vecs = s.m.vecs.filter (fun k => !decide (k.c = c ∧ k.slot.uid = j.slot.uid)) ∧ t.m.dram = s.m.dram
    (j.computed = true → Ends (.vectorCommit c) s fun t => Committed s t c j.slot ∧ gone t ∧ t.m.spad = s.m.spad) ∧
    (∀ m', j.computed = false →
      let u := s.m.takeupOf c j.slot.uid
      let v := parseVec j.slot.bytes
      u.whole = true → u.frozen = false → u.tainted = false → s.m.vecWindow c v = true → s.m.reachable v.path = true →
      ((s.m.wake v.path).dropVec c j.slot.uid).runVec c j.slot (some u) = (m', true) →
      Ends (.vectorCommit c) s fun t => Committed s t c j.slot ∧ gone t ∧ t.m.spad = m'.spad)) ∧
  ∀ (s : State) (c : CtxId) (j : AuditJob), s.m.audits.find? (fun k => decide (k.c = c)) = some j → s.m.mayCommit c j.slot = true →
    EmitFits s.m c j.slot →
    s.m.reachable (parseAudit j.slot.bytes).path = true →
    let x := s.m.ctxs[c]
    let a := parseAudit j.slot.bytes
    let ctl := ctlOf j.slot.bytes
    let gone := fun (t : State) => t.m.audits = s.m.audits.filter (fun k => !decide (k.c = c ∧ k.slot.uid = j.slot.uid))
    (a.op ≠ 2 → Ends (.auditCommit c) s fun t =>
      Committed s t c j.slot ∧ gone t ∧ SameMemory s t ∧
        ∃ rest, rest.length = (if bit (emitTargets ctl) 6 then 1 else 0) ∧
          (t.m.ctxs[c]).recordQ = x.recordQ ++ ⟨x.recordSeq, some j.slot.uid, recordBytes c x.recordSeq.toNat s.m.now {
            kind := .digest, status := 0x12, eng := j.slot.eng.num.val, wordSeq := j.slot.seq.toNat,
            tokenId := if emitTargets ctl = 0 then 0 else emitId ctl, userTag := a.tag, step := j.slot.step.toNat,
            ordered := x.words.any fun w => decide (w.uid = j.slot.uid) && w.isOrdered, payload := j.digest,
            uid := some j.slot.uid }⟩ :: rest) ∧
    (a.op = 2 → s.m.spadPartBad a.addr 2048 = none → Ends (.auditCommit c) s fun t =>
      Committed s t c j.slot ∧ gone t ∧ t.m.spadRead a.addr 2048 = s.m.snapBlock c ∧
        (∀ x, x < a.addr ∨ a.addr + 2048 ≤ x → t.m.spadRead x 1 = s.m.spadRead x 1) ∧ t.m.dram = s.m.dram)

/-! ### The Shuttle: collectives, their messages, groups -/

namespace Sys2Proof.Claims

/-- The seven rows that start a collective, each with its op (R185). -/
def collectiveRows : List (Nat × (CtxId → Instr)) :=
  [(0, .allReduce), (1, .reduceScatter), (2, .allGather), (3, .broadcast), (4, .reduce), (5, .barrier), (6, .scalarAllReduce)]

/-- A collective has ended on this module with a fault of its context (R148, R213). -/
def CollFails (s t : State) (k : Coll) (code detail : Nat) : Prop :=
  t.m.coll k.key = none ∧ (t.m.ctxs[k.key.ctx]).st = .halting ∧ (t.m.ctxs[k.key.ctx]).cause = .fault ∧
    ((t.m.ctxs[k.key.ctx]).pendingFault.map fun f => (f.status, f.detail)) = some (BitVec.ofNat 8 code, BitVec.ofNat 32 detail) ∧
    OtherCtxs k.key.ctx s t ∧ t.m.dram = s.m.dram

/-- The next message of a kind is for the open collective k, and the Shuttle and the way to the collective's memory can be reached. -/
def MsgFor (m : Mach) (kind : Nat) (g : ShMsg) (m1 : Mach) (k : Coll) : Prop :=
  m.reachable [128, 126] = true ∧ m.reachable k.path = true ∧ m.takeMsg kind (fun _ => true) = some (g, m1) ∧ m1.msgPlace g = .here k

/-- The next message of a handshake kind is for the open collective k, and its header agrees with k's own (R197). -/
def HandMsg (m : Mach) (kind : Nat) (g : ShMsg) (m1 : Mach) (k : Coll) : Prop :=
  MsgFor m kind g m1 k ∧ (shHdr g.hdr).proto = k.group.proto.toNat ∧ (shHdr g.hdr).desc = k.describe.1 ∧
    (shHdr g.hdr).mhash = k.group.hash.toNat

/-- A collective stands as it was with the members of one index changed; beside the Shuttle's tables and islands that woke, only the
counts of what ECC corrected on the way have changed. -/
def MemberNow (s t : State) (k : Coll) (h : Nat) (f : ShMember → ShMember) : Prop :=
  t.m.coll k.key = some { k with members := k.members.map fun y => if y.h = h then f y else y } ∧ SameMemory s t ∧
    Only (fun a b => { a with shut := b.shut, islands := b.islands, mem := b.mem, log := b.log, counters := b.counters }) s t

end Sys2Proof.Claims

/-- R134, R192 to R194: each of the seven collective rows takes its slot from the head of the SHUTTLE queue. A slot whose sequence is not
the group's expected one faults with BAD_SLOT and changes no group; otherwise the group expects the next sequence, and a slot that passes
its checks joins the line of collectives with its members of this module, while one that does not faults with the status of the check and
joins nothing. -/
def Obligations.CollectiveSlotJoinsTheLine : Prop :=
  ∀ (s : State) (c : CtxId) (q : QSlot) (g : Group) (own : Nat) (row : Nat × (CtxId → Instr)), row ∈ collectiveRows →
    let v := parseShut q.bytes
    let m := (s.m.wake (s.m.collPath c q)).takeHead c .shuttle
    let next := m.modGroup c v.group fun g => { g with expected := g.expected + 1 }
    let k := next.makeColl c q false g own
    s.m.startable c .shuttle = some q → v.op = row.1 → s.m.works = true → s.m.reachable (s.m.collPath c q) = true →
    s.m.foldWaits c = false → s.m.collGroup c v = some (g, own) →
    (v.seq ≠ g.expected.toNat → Ends (row.2 c) s fun t =>
      HeadTaken s t c .shuttle ∧ Faulting t c .badSlot (badSlotDetail 4 g.expected.toNat) ∧ OtherCtxs c s t ∧ t.m.shut = s.m.shut ∧
        SameMemory s t) ∧
    (∀ st d, v.seq = g.expected.toNat → next.checkColl k = some (st, d) → Ends (row.2 c) s fun t =>
      HeadTaken s t c .shuttle ∧ Faulting t c st d ∧ OtherCtxs c s t ∧ t.m.shut = next.shut ∧ SameMemory s t) ∧
    (v.seq = g.expected.toNat → next.checkColl k = none → next.unplanned c = false → Ends (row.2 c) s fun t =>
      HeadTaken s t c .shuttle ∧ t.m.group c v.group = some { g with expected := g.expected + 1 } ∧
        (∃ j ∈ t.m.shut.colls, j.key = ⟨c, v.group, BitVec.ofNat 32 v.seq⟩ ∧ j.slot = q ∧ j.members = k.members) ∧
        OtherCtxs c s t ∧ SameMemory s t ∧
        Only (fun a b => { a with
          ctxs := b.ctxs, islands := b.islands, shut := b.shut, pools := b.pools, mem := b.mem, log := b.log,
          counters := b.counters }) s t)

/-- R193, R195, R197, R198, R217: a collective whose reservation is held is admitted, and the handshake messages that came early for it
are handled next; a member that has scanned its input is ready with its report, or the collective fails at an uncorrectable word of it;
SCALE, RESULT and SCALAR messages give the member they are for what they carry, and a message at another protocol level fails the
collective. -/
def Obligations.HandshakeMovesTheCollectiveOn : Prop :=
  ∀ (s : State) (k : Coll) (x : ShMember),
    let c := k.key.ctx
    (s.m.coll k.key = some k → k.phase = .reservation → k.reserved ≠ 0 → s.m.reachable [128, 126] = true →
      let mine := fun (g : ShMsg) => decide (s.m.memberCtx g.fold = some c) && decide (keyOf c (shHdr g.hdr) = k.key)
      (k.reduces = true → (∀ y ∈ k.members, y.readyAt = none) → Ends (.collectiveAdmit k.key) s fun t =>
        t.m.coll k.key = some { k with phase := .admitted } ∧ t.m.shut.early = s.m.shut.early.filter (fun g => !mine g) ∧
          t.m.shut.rx = (s.m.shut.early.filter mine).map (fun (g : ShMsg) => { g with ctx := c }) ++ s.m.shut.rx ∧
          Only (fun a b => { a with shut := b.shut, islands := b.islands }) s t) ∧
      (k.reduces = false → Ends (.collectiveAdmit k.key) s fun t =>
        ∀ j, t.m.coll k.key = some j → j.key = k.key ∧ j.phase = .admitted)) ∧
    (s.m.coll k.key = some k → k.phase ≠ .place → k.reduces = true → k.members.find? (fun y => y.readyAt.isNone) = some x →
      k.member x.h = some x → s.m.reachable k.path = true →
      let bad := s.m.badSpads (s.m.srcRanges k x.die 0 k.s.src.count)
      (bad = none → (∃ g ∈ k.children x.h, g ≠ x.h ∧ ∀ p ∈ x.reports, p.1 ≠ g) →
        Ends (.exponentScanComplete k.key) s fun t => MemberNow s t k x.h fun y =>
          { y with reports := y.reports ++ [(x.h, s.m.report k x, s.m.now)], readyAt := some s.m.now }) ∧
      (∀ w, bad = some w → (s.m.ctxs[c]).st = .enabled → Ends (.exponentScanComplete k.key) s fun t =>
        CollFails s t k Status.uncorrectable.code (spadIsland (w * 8)))) ∧
    (∀ g m1, HandMsg s.m shScale g m1 k →
      let h := shHdr g.hdr
      h.sender ≠ 0 → h.sender < k.size → k.member (k.parent h.sender) = some x → (∀ p ∈ x.reports, p.1 ≠ h.sender) →
       x.readyAt = none →
      Ends .shuttleScale s fun t => MemberNow s t k x.h fun y =>
        { y with reports := y.reports ++ [(h.sender, k.readReport h g.data, s.m.now)] }) ∧
    (∀ g m1, MsgFor s.m shScale g m1 k → (s.m.ctxs[c]).st = .enabled →
      let h := shHdr g.hdr
      h.sender ≠ 0 → h.sender < k.size → k.member (k.parent h.sender) = some x → h.proto ≠ k.group.proto.toNat →
      Ends .shuttleScale s fun t => CollFails s t k Status.levelMismatch.code (k.memberDetail x.h)) ∧
    (∀ g m1, HandMsg s.m shResult g m1 k → k.childOf (shHdr g.hdr).sender (fun y => y.result.isNone) = some x →
      k.member x.h = some x →
      let r := k.readReport (shHdr g.hdr) g.data
      (Ends .shuttleResult s fun t => ∀ j, t.m.coll k.key = some j → ∃ y ∈ j.members, y.h = x.h ∧ y.result = some r) ∧
      (k.s.op = 5 → k.children x.h = [] → (∀ y ∈ k.members, y.tasks = []) → Ends .shuttleResult s fun t =>
        t.m.coll k.key = some { k with members := k.members.map fun y => if y.h = x.h then { y with result := some r } else y } ∧
          SameMemory s t ∧ Only (fun a b => { a with
            shut := b.shut, islands := b.islands, mem := b.mem, log := b.log, counters := b.counters, mgmt := b.mgmt }) s t)) ∧
    (∀ g m1, HandMsg s.m shScalar g m1 k →
      let h := shHdr g.hdr
      (h.inward = true → k.childOf h.sender (fun y => y.total.isNone) = some x → k.children x.h = [] →
        Ends .shuttleScalar s fun t => MemberNow s t k x.h fun y => { y with total := some h.value }) ∧
      (h.inward = false → h.sender ≠ 0 → h.sender < k.size → k.member (k.parent h.sender) = some x →
        (∀ p ∈ x.scalars, p.1 ≠ h.sender) → x.result = none →
        Ends .shuttleScalar s fun t => MemberNow s t k x.h fun y => { y with scalars := y.scalars ++ [(h.sender, h.value)] }))

namespace Sys2Proof.Claims

/-- A collective has nothing to move on, to write or to send. -/
def Settled (k : Coll) : Prop :=
  ∀ y ∈ k.members, k.advance y = y ∧ y.tasks = [] ∧
    (k.multicasts = true → ∀ z ∈ k.members, ∀ p ∈ z.inwardSpans, p.2 ≠ 0 → p ∈ y.wrote)

/-- A received message has been answered as `m'` answers it, one event has been counted for the Shuttle, and no collective has changed. -/
def Answered (s t : State) (m' : Mach) (src : Nat) (c : CtxId) : Prop :=
  t.m.shut = m'.shut ∧ t.m.net = m'.net ∧ t.m.shut.colls = s.m.shut.colls ∧
    t.m.counters = ((s.m.wake [128]).cnt src 128 (some c)).counters ∧
    Only (fun a b => { a with shut := b.shut, net := b.net, counters := b.counters, islands := b.islands, freeCtr := b.freeCtr }) s t

end Sys2Proof.Claims

/-- R200, R207, R209, R210: a bobbin with a wrong CRC or length is answered with a NACK and counted, one already taken with an ACK and
counted; one whose Tally does not agree with its data fails the collective; another is noted as taken by its member, and one that reaches
the owner of its piece is added to the owner's contribution and kept with its running Tally. An ACK releases the bobbin it answers. A NACK
of a bobbin and its time-out send it again, with one more resend counted outside a rebuild, until the limit is reached and the collective
fails with TIMEOUT; a refused handshake message is kept, and goes again after its wait. -/
def Obligations.BobbinsAreTakenAnsweredAndResent : Prop :=
  ∀ (s : State) (g : ShMsg) (m1 : Mach) (k : Coll), s.m.reachable [128, 126] = true →
    let h := shHdr g.hdr
    let c := k.key.ctx
    let limit := s.m.num 0x2C00 5
    let resent := fun (e : ShSent) (t : State) =>
      t.m.shut.colls = (s.m.shut.colls.map fun j => if j.key = k.key then
        { j with sent := j.sent.map fun y => if y.id = e.id ∧ s.m.net.rebuilding = false then { y with resends := y.resends + 1 } else y }
        else j) ∧
      t.m.counters = ((s.m.wake [128]).cnt 0xA009 128 (some c)).counters ∧
      Only (fun a b => { a with shut := b.shut, net := b.net, counters := b.counters, islands := b.islands }) s t
    (∀ x r, s.m.takeMsg shData s.m.dataReady = some (g, m1) → m1.msgPlace g = .here k → s.m.reachable k.path = true →
      k.bobbinFor h = some x → x.result = some r →
      let chunk := (h.stage, h.inward, h.backward, h.chunk)
      let whole := (crc32 g.data).toNat = h.crc ∧ g.data.length = h.length
      (¬whole → Ends .shuttleData s fun t => Answered s t (m1.shNackTo g x.h) 0xA005 g.ctx) ∧
      (whole → chunk ∈ x.seen → Ends .shuttleData s fun t => Answered s t (m1.shAckTo g x.h) 0xA006 g.ctx) ∧
      (whole → chunk ∉ x.seen → (s.m.ctxs[c]).st = .enabled →
        (∀ i xs, k.tallied r (h.chunk * 32) g.data = some (i, xs) → k.tallyAt i xs ≠ h.tally) → Ends .shuttleData s fun t =>
          CollFails s t k Status.tallyMismatch.code (k.rankOf h.sender)) ∧
      (∀ i xs, whole → chunk ∉ x.seen → k.tallied r (h.chunk * 32) g.data = some (i, xs) → k.tallyAt i xs = h.tally →
        k.member x.h = some x →
        (Ends .shuttleData s fun t => ∀ j, t.m.coll k.key = some j → ∃ y ∈ j.members, y.h = x.h ∧ chunk ∈ y.seen) ∧
        ∀ own t0 m2, h.inward = false →
          (m1.wake k.path).contribution k x r (posIn h.stage k.stages) (h.chunk * 32) xs.length = (m2, .ok (own, t0)) →
          let sum := (xs.zip own).map fun p => p.1 + p.2
          let p := k.stagePiece h.stage x.h
          let k' := { k with members := k.members.map fun (y : ShMember) => if y.h = x.h then
            { y with acc := putSpan (h.chunk * 32) sum y.acc, seen := y.seen ++ [chunk],
                     kept := y.kept ++ [⟨h.stage, false, h.chunk * 32, xs.length, (h.tally + t0) % tallyP⟩] } else y }
          k.tallyAt (h.chunk * 32) sum = (h.tally + t0) % tallyP → p.1 ≤ h.chunk * 32 → h.chunk * 32 < p.1 + p.2 → Settled k' →
          Ends .shuttleData s fun t => t.m.coll k.key = some k' ∧ SameMemory s t ∧ Only (fun a b => { a with
            shut := b.shut, net := b.net, pools := b.pools, islands := b.islands, mem := b.mem, log := b.log,
            counters := b.counters }) s t)) ∧
    (∀ e, s.m.takeMsg shAck (fun _ => true) = some (g, m1) → (m1.group g.ctx h.gid).isSome = true → m1.coll (keyOf g.ctx h) = some k →
      k.sent.find? (fun e => m1.answered k g shData e) = some e →
      let k' := { k with sent := k.sent.filter fun y => !decide (y.id = e.id) }
      (e.id < s.m.shut.nextId → Ends .shuttleAck s fun t => ∀ j, t.m.coll k.key = some j → ∀ y ∈ j.sent, y.id ≠ e.id) ∧
      (Settled k' → Ends .shuttleAck s fun t => t.m.coll k.key = some k' ∧ SameMemory s t ∧
        Only (fun a b => { a with shut := b.shut, pools := b.pools, islands := b.islands }) s t)) ∧
    (∀ e, s.m.takeMsg shNack (fun _ => true) = some (g, m1) → (m1.group g.ctx h.gid).isSome = true → m1.coll (keyOf g.ctx h) = some k →
      k.sent.find? (fun e => m1.answered k g h.refusedKind e) = some e →
      (h.refusedKind = shData → e.resends < limit ∨ s.m.net.rebuilding = true →
        (m1.shSend c (k.rankOf e.dest) (shHdr e.hdr) e.data).isSome = true → Ends .shuttleNack s (resent e)) ∧
      (h.refusedKind = shData → limit ≤ e.resends → s.m.net.rebuilding = false → (s.m.ctxs[c]).st = .enabled →
        Ends .shuttleNack s fun t => CollFails s t k Status.timeout.code (objDetail 0x2C00 5)) ∧
      (h.refusedKind ≠ shData → Ends .shuttleNack s fun t =>
        t.m.shut = { m1.shut with refused := s.m.shut.refused ++ [(k.key, e)] } ∧
          Only (fun a b => { a with shut := b.shut, islands := b.islands }) s t)) ∧
    (∀ e id, (s.m.shut.colls.findSome? fun k =>
        (k.sent.find? fun e => decide (e.id = id) && decide ((shHdr e.hdr).kind = shData)).map fun e => (k, e)) = some (k, e) →
      (e.resends < limit ∨ s.m.net.rebuilding = true → (s.m.shSend c (k.rankOf e.dest) (shHdr e.hdr) e.data).isSome = true →
        Ends (.bobbinResend id) s (resent e)) ∧
      (limit ≤ e.resends → s.m.net.rebuilding = false → s.m.coll k.key = some k → (s.m.ctxs[c]).st = .enabled →
        Ends (.bobbinResend id) s fun t => CollFails s t k Status.timeout.code (objDetail 0x2C00 5))) ∧
    (∀ e m', s.m.shut.refused.find? (fun (r : CollKey × ShSent) => decide (r.2.id = e.id)) = some (k.key, e) → s.m.coll k.key = some k →
      s.m.shSend c (k.rankOf e.dest) (shHdr e.hdr) e.data = some m' → Ends (.handshakeResend e.id) s fun t =>
        t.m.shut.refused = (s.m.shut.refused.filter fun (r : CollKey × ShSent) => !decide (r.2.id = e.id)) ∧
          t.m.shut.colls = s.m.shut.colls ∧ t.m.net = m'.net ∧
          Only (fun a b => { a with shut := b.shut, net := b.net, islands := b.islands }) s t)

/-- R190, R193, R213, R215: an ABORT or STALE notice, an admission that takes too long and a collective that makes no progress end the
collective on this module, and its context faults with the status and detail the rule names. -/
def Obligations.CollectivesFailWithTheirStatus : Prop :=
  ∀ (s : State) (k : Coll), s.m.coll k.key = some k → (s.m.ctxs[k.key.ctx]).st = .enabled →
    s.m.reachable [128, 126] = true →
    (∀ g m1 d, s.m.takeMsg shAbort (fun _ => true) = some (g, m1) → keyOf g.ctx (shHdr g.hdr) = k.key →
      m1.group g.ctx (shHdr g.hdr).gid = some d → d.epoch.toNat = (shHdr g.hdr).epoch → Ends .shuttleAbort s fun t =>
        CollFails s t k (shHdr g.hdr).status (shHdr g.hdr).detail) ∧
    (∀ g m1, s.m.takeMsg shStale (fun _ => true) = some (g, m1) → keyOf g.ctx (shHdr g.hdr) = k.key →
      (m1.group g.ctx (shHdr g.hdr).gid).isSome = true → Ends .shuttleStale s fun t =>
      CollFails s t k Status.staleRole.code (shHdr g.hdr).detail) ∧
    (k.phase = .place → Ends (.shuttleAdmitTimeout k.key) s fun t => CollFails s t k Status.timeout.code (objDetail 0x2C00 6)) ∧
    (k.phase = .admitted → Ends (.shuttleProgressTimeout k.key) s fun t =>
      CollFails s t k Status.timeout.code (objDetail 0x2C00 7)) ∧
    (k.phase ≠ .admitted → exec (.shuttleProgressTimeout k.key) s = .next s)

/-- R128, R132, R147, R188, R212, R297: the next member of this module that may commit writes its destination, norm and residuals, in that
order, and nothing else of memory changes; with the last member the slot commits and the collective ends, the Drover's barrier too.
DEFINE_GROUP and RELEASE_GROUP start and commit in one step: a definition that passes its checks is the group from then on, expecting
sequence 0; a released group is gone; a group with an open collective is neither replaced nor released. -/
def Obligations.CollectivesCommitAndGroupsChange : Prop :=
  (∀ (s : State) (k : Coll) (x : ShMember), s.m.coll k.key = some k → k.members.find? k.mayCommit = some x →
    k.drover = true ∨ s.m.mayCommit k.key.ctx k.slot = true → s.m.reachable k.path = true →
    let r := x.result.getD ⟨[], false, 0⟩
    let ws := s.m.commitWrites k r x
    s.m.badSpads (if k.newResiduals r then s.m.srcRanges k x.die 0 k.s.src.count else []) = none → s.m.writesBad ws = none →
    (k.drover = false → Ends (.collectiveCommit k.key) s fun t =>
      t.m.spad = (ws.foldl (fun m w => m.spadWrite w.1 w.2) s.m).spad ∧ ∀ a n, t.m.dramRead a n = s.m.dramRead a n) ∧
    ((∃ y ∈ k.members, y.h ≠ x.h ∧ y.committed = false) → Ends (.collectiveCommit k.key) s fun t =>
      t.m.coll k.key = some { k with members := k.members.map fun y => if y.h = x.h then { y with committed := true } else y } ∧
        t.m.ctxs = s.m.ctxs) ∧
    (k.drover = true → (∀ y ∈ k.members, y.h = x.h ∨ y.committed = true) → Ends (.collectiveCommit k.key) s fun t =>
      t.m.coll k.key = none) ∧
    (k.drover = false → (∀ y ∈ k.members, y.h = x.h ∨ y.committed = true) → EmitFits s.m k.key.ctx k.slot →
       Ends (.collectiveCommit k.key) s fun t =>
      t.m.coll k.key = none ∧ Committed s t k.key.ctx k.slot)) ∧
  ∀ (s : State) (c : CtxId) (q : QSlot),
    let k := parseConf q.bytes
    let m := (s.m.takeHead c .conf).wake k.path
    let others := fun (t : State) => ∀ d n, (d, n) ≠ (c, k.group) → t.m.group d n = s.m.group d n
    let done := fun (t : State) => (t.m.ctxs[c]).heddle = ((m.ctxs[c]).emit (emitTargets (ctlOf q.bytes)) (emitId (ctlOf q.bytes))).heddle ∧
      (∀ w ∈ (t.m.ctxs[c]).words, w.uid = q.uid → q.eng ∉ w.left) ∧ OtherCtxs c s t ∧ SameMemory s t
    s.m.startable c .conf = some q → s.m.works = true → s.m.reachable k.path = true → s.m.headAhead c .conf q = false →
    s.m.mayCommit c q = true →
    (∀ g, k.op = 0 → m.defineGroup c k = .ok g → EmitFits m c q → Ends (.defineGroup c) s fun t =>
      t.m.group c k.group = some g ∧ g.expected = 0 ∧ others t ∧ done t) ∧
    (k.op = 1 → s.m.groupOpen c k.group = false → EmitFits m c q → Ends (.releaseGroup c) s fun t =>
      t.m.group c k.group = none ∧ others t ∧ done t) ∧
    (∀ row ∈ [((0 : Nat), Instr.defineGroup), (1, Instr.releaseGroup)], k.op = row.1 → s.m.groupOpen c k.group = true →
      Ends (row.2 c) s fun t => Faulting t c .badSlot (badSlotDetail 6 k.group) ∧ t.m.shut = s.m.shut ∧ SameMemory s t)

/-! ### The Drover: vault and checkpoints -/

namespace Sys2Proof.Claims

/-- An EMCY event with this code and detail is the newest entry of error_history (R356). -/
def Told (t : State) (code detail : Nat) : Prop :=
  t.m.mgmt.history.head? = some (BitVec.ofNat 32 ((detail % 65536) * 65536 + code % 65536))

/-- A write of an object that reaches the dictionary is accepted and has an effect. -/
def Writes (i : Instr) (s : State) (ch : Channel) (idx sub : Nat) (data : Bytes) (P : State → Prop) : Prop :=
  Reaches s ch idx sub data → Ends i s fun t => Accepted ch idx sub t ∧ P t

/-- A write of an object that reaches the dictionary is refused with an abort code and changes nothing else. -/
def Refuses (i : Instr) (s : State) (ch : Channel) (idx sub : Nat) (data : Bytes) (code : Nat) : Prop :=
  Reaches s ch idx sub data → Ends i s (RefusedWith code ch idx sub s)

/-- The DRAM bytes from a to a + b.length − 1 are b, and every other byte of DRAM and scratchpad reads as before. -/
def DramPut (s t : State) (a : Nat) (b : Bytes) : Prop :=
  t.m.dramRead a b.length = b ∧ (∀ x, x < a ∨ a + b.length ≤ x → t.m.dramByte x = s.m.dramByte x) ∧ t.m.spad = s.m.spad

/-- A slot that started and committed in one step has emitted its token (R135, R147). -/
def StartedAndCommitted (s t : State) (c : CtxId) (e : Eng) (q : QSlot) : Prop :=
  (t.m.ctxs[c]).queues[e.num] = ((s.m.ctxs[c]).queues[e.num]).tail ∧
    (t.m.ctxs[c]).heddle = (((s.m.takeHead c e).ctxs[c]).emit (emitTargets (ctlOf q.bytes)) (emitId (ctlOf q.bytes))).heddle ∧
    (∀ w ∈ (t.m.ctxs[c]).words, w.uid = q.uid → q.eng ∉ w.left) ∧ OtherCtxs c s t

end Sys2Proof.Claims

/-- R134, R303 to R305, R313, R314: a STRIPE_WRITE with room starts with the bytes of its source and its first packet on its way; one
whose source has an uncorrectable unit, or that does not pass the checks of R304, fails with its status; without room it stays where it is
and the vault shows READ_ONLY, and in time it fails. A READ of a good shard of this vault starts with its bytes, with what its codewords
came to counted; one whose own shard is missing or bad, or has a codeword that cannot be read, starts a rebuild; one outside the window,
of a shard of another length, or of a bad shard of another member fails. RETIRE_GENERATION retires its generation and commits. -/
def Obligations.VaultSlotsStart : Prop :=
  ∀ (s : State) (c : CtxId) (q : QSlot),
    let v := parseVault q.bytes
    let job := fun (d : Bytes) (step : BitVec 64) (reads : Option Nat) => ({
      c := c, slot := q, data := d, step := step, reads := reads, piece := 0, pos := 0, headerSent := false, outstanding := 0,
      failed := none, fetched := [] } : VaultJob)
    let taken := fun (e : List IslandId) => (s.m.takeHead c .vault).wake e
    (∀ m' b step far r, s.m.vaultHot = false → s.m.vaultHead c 0 = some q → s.m.stripeCheck c v = none →
      s.m.vaultRoom (s.m.vaultLen c v) (s.m.stripeG c) = true → (taken v.path).vaultRead c q v = (m', .ok (b, step)) →
      m'.ownRank c = some r → m'.rankOf c (stripeRank (s.m.stripeG c) r ((r % s.m.stripeG c + 1) % s.m.stripeG c)) = some far →
      m'.canReach clsBulk far.1 = true → Ends (.stripeWrite c) s fun t =>
        HeadTaken s t c .vault ∧
          t.m.drover.jobs = s.m.drover.jobs ++ [{ job b step ((m'.vaultSrc c v).reads) with outstanding := 1 }] ∧
          (∃ f ∈ t.m.mv.flights, f.owner = .shard c q.uid) ∧ t.m.drover.shards = s.m.drover.shards ∧ OtherCtxs c s t ∧ SameMemory s t) ∧
    (∀ m' i, s.m.vaultHot = false → s.m.vaultHead c 0 = some q → s.m.stripeCheck c v = none →
      s.m.vaultRoom (s.m.vaultLen c v) (s.m.stripeG c) = true → (taken v.path).vaultRead c q v = (m', .error i) →
      Ends (.stripeWrite c) s fun t =>
        HeadTaken s t c .vault ∧ Faulting t c .uncorrectable i ∧ t.m.drover = s.m.drover ∧ OtherCtxs c s t ∧ SameMemory s t) ∧
    (s.m.vaultHead c 0 = some q → s.m.stripeCheck c v = none → s.m.vaultRoom (s.m.vaultLen c v) (s.m.stripeG c) = false →
      (s.m.vaultHot = false → Ends (.stripeWrite c) s fun t =>
        t.m.drover.vault = 2 ∧ t.m.ctxs = s.m.ctxs ∧ t.m.drover.jobs = s.m.drover.jobs ∧ SameMemory s t) ∧
      Ends (.vaultSpaceTimeout c) s fun t =>
        HeadTaken s t c .vault ∧ Faulting t c .timeout (objDetail 0x2B00 7) ∧ t.m.drover = s.m.drover ∧ OtherCtxs c s t ∧
          SameMemory s t) ∧
    (∀ st d, s.m.vaultHot = false → s.m.vaultHead c 0 = some q → s.m.stripeCheck c v = some (st, d) → Ends (.stripeWrite c) s fun t =>
      HeadTaken s t c .vault ∧ Faulting t c st d ∧ t.m.drover = s.m.drover ∧ OtherCtxs c s t ∧ SameMemory s t) ∧
    (s.m.vaultHead c 1 = some q →
      let own := s.m.readShard c v
      let ws := fun (x : Shard) => s.m.codewordsIn x.blocks
      let fails := fun (st : Status) (d : Nat) => Ends (.read c) s fun t =>
        HeadTaken s t c .vault ∧ Faulting t c st d ∧ t.m.drover.shards = s.m.drover.shards ∧ t.m.drover.jobs = s.m.drover.jobs ∧
          OtherCtxs c s t ∧ SameMemory s t
      let good := fun (x : Shard) => s.m.shardGood x = true ∧ allRead (ws x) = true
      (s.m.dramInWindow c v.dram v.length = false → fails .windowViolation 0) ∧
      (s.m.dramInWindow c v.dram v.length = true →
        (∀ x, own = some x → x.data.length ≠ v.length → fails .badSlot (badSlotDetail 11 0)) ∧
        (∀ x, own = some x → x.data.length = v.length → good x → Ends (.read c) s fun t =>
          let r := (taken v.path).readCodewords (some c) (ws x)
          HeadTaken s t c .vault ∧ t.m.drover = { r.drover with jobs := s.m.drover.jobs ++ [job x.data q.step none] } ∧
            t.m.drover.shards = s.m.drover.shards ∧ t.m.counters = r.counters ∧ OtherCtxs c s t ∧
            Only (fun a b => { a with
              ctxs := b.ctxs, islands := b.islands, drover := b.drover, log := b.log, counters := b.counters, mgmt := b.mgmt }) s t) ∧
        (∀ x, own = some x → x.data.length = v.length → ¬good x → some x.rank ≠ s.m.ownRank c → fails .uncorrectable 0xFFFFFFFF) ∧
        ((own = none ∧ (s.m.ownRank c).isSome = true) ∨
            (∃ x, own = some x ∧ x.data.length = v.length ∧ ¬good x ∧ some x.rank = s.m.ownRank c) → Ends (.read c) s fun t =>
          HeadTaken s t c .vault ∧
            ((∃ j ∈ t.m.drover.jobs, j.c = c ∧ j.slot = q ∧ j.pos = 1) ∨ Faulting t c .uncorrectable 0xFFFFFFFF) ∧
            t.m.drover.shards = s.m.drover.shards ∧ OtherCtxs c s t ∧ SameMemory s t))) ∧
    (s.m.vaultHead c 2 = some q → s.m.mayCommit c q = true →
      (s.m.vaultProtected = false → EmitFits (s.m.takeHead c .vault) c q → Ends (.retireGeneration c) s fun t =>
        StartedAndCommitted s t c .vault q ∧ (∃ g, t.m.gen (s.m.foldId c) v.generation = some g ∧ g.st = 2) ∧
          t.m.drover.shards = s.m.drover.shards ∧ SameMemory s t) ∧
      (s.m.vaultProtected = true → Ends (.retireGeneration c) s fun t =>
        HeadTaken s t c .vault ∧ Faulting t c .badSlot (badSlotDetail 10 0) ∧ t.m.drover = s.m.drover ∧ OtherCtxs c s t ∧
          SameMemory s t))

/-- R147, R302, R304, R305, R314: a STRIPE_WRITE whose pieces are all sent and received commits with its shard and its parity share in the
vault; the blocks that it programmed begin their age anew, and those that failed are bad from then on; one whose data a program failure
lost fails UNCORRECTABLE, and one whose peers' pieces do not come with TIMEOUT, and neither changes a shard. A READ writes its shard's
bytes to DRAM, and nothing else, and commits. -/
def Obligations.VaultSlotsCommitOrFail : Prop :=
  ∀ (s : State) (c : CtxId) (j : VaultJob), s.m.drover.jobs.find? (fun k => decide (k.c = c)) = some j →
    let v := parseVault j.slot.bytes
    let n := codewordsOf j.data.length
    let own := fun (blocks : List Nat) => { s.m.stripeShard c v j.data j.step with blocks := blocks.take n }
    let par := xorAll ((s.m.piecesOf c v.generation v.tag).map Piece.data)
    let share := fun (blocks : List Nat) =>
      { own blocks with kind := 2, slice := 0, pieceUnits := par.length / 4096, digest := sha3 par, data := par, blocks := blocks.drop n }
    let gone := fun (t : State) => ∀ k ∈ t.m.drover.jobs, ¬(k.c = c ∧ k.slot.uid = j.slot.uid)
    let retired := fun (failed : List Nat) (t : State) =>
      ∀ b, b ∈ t.m.drover.badBlocks ↔ b ∈ s.m.drover.badBlocks ∨ b ∈ failed
    (∀ programmed failed, v.op = 0 → s.m.vaultHot = false → s.m.reachable [130] = true → s.m.stripeG c ≤ j.piece + 1 →
      j.outstanding = 0 → s.m.piecesHere c v = true → s.m.mayCommit c j.slot = true → EmitFits s.m c j.slot →
      Ends (.stripeWriteCommit c ⟨programmed, failed, false⟩) s fun t =>
        let x := own programmed
        t.m.shardAt x.fold x.generation.toNat x.tag.toNat false = some x ∧
          t.m.shardAt x.fold x.generation.toNat x.tag.toNat true = some (share programmed) ∧ Committed s t c j.slot ∧ gone t ∧
          (∀ b ∈ programmed, Sparse.get 0 b t.m.drover.programmed = s.m.now + 1) ∧ retired failed t ∧ SameMemory s t) ∧
    (∀ programmed failed, v.op = 0 → s.m.vaultHot = false → s.m.reachable [130] = true → (s.m.ctxs[c]).st = .enabled →
      Ends (.stripeWriteCommit c ⟨programmed, failed, true⟩) s fun t =>
        Faulting t c .uncorrectable 130 ∧ gone t ∧ retired failed t ∧ t.m.drover.shards = s.m.drover.shards ∧ OtherCtxs c s t ∧
          SameMemory s t) ∧
    (v.op = 0 → s.m.piecesHere c v = false → (s.m.ctxs[c]).st = .enabled → Ends (.vaultStripeTimeout c) s fun t =>
      Faulting t c .timeout (objDetail 0x2B00 6) ∧ gone t ∧ t.m.drover.shards = s.m.drover.shards ∧ OtherCtxs c s t ∧
        SameMemory s t) ∧
    (v.op = 1 → s.m.reachable v.path = true → j.headerSent = false → j.pos = 0 → s.m.mustHold v.dram j.data.length = false →
      s.m.dramPartBad v.dram j.data.length = none → (∀ w ∈ s.m.drover.heldWrites, w.owner ≠ some (c, j.slot.uid)) →
      s.m.mayCommit c j.slot = true → EmitFits s.m c j.slot → Ends (.vaultReadCommit c) s fun t =>
        DramPut s t v.dram j.data ∧ Committed s t c j.slot ∧ gone t ∧ t.m.drover.shards = s.m.drover.shards)

/-- R305, R313 to R316: erasing a retired generation frees its shards' room, and its blocks start their counts again; a die that fails
starts a rebuild, or loses the vault when its stripe has another that is not rebuilt; a rebuild ends with the vault OK; a refresh counts
what the codewords it reads came to and one erase of its block, and keeps every shard. -/
def Obligations.VaultUpkeepKeepsLiveShards : Prop :=
  ∀ s : State,
    (∀ (gen : BitVec 32) (erased failed : List Nat),
      let retired := fun (x : Shard) => decide (x.generation = gen) &&
        s.m.drover.gens.any fun g => decide (g.generation = gen) && decide (g.fold = x.fold) && decide (g.st = 2)
      s.m.drover.shards.filter retired ≠ [] → s.m.reachable [130] = true → Ends (.retiredGenerationErase ⟨gen, erased, failed⟩) s fun t =>
        t.m.drover.shards = (s.m.drover.shards.filter fun x => !retired x) ∧
          t.m.drover.freeKib = s.m.drover.freeKib + ((s.m.drover.shards.filter retired).map fun x => shardKib x.data.length).sum ∧
          t.m.drover.vault ≠ 2 ∧ t.m.drover.gens = s.m.drover.gens ∧
          (∀ b, Sparse.get 0 b t.m.drover.erases = Sparse.get 0 b s.m.drover.erases + erased.count b) ∧
          (∀ b ∈ erased, Sparse.get 0 b t.m.drover.reads = 0) ∧
          (∀ b, b ∈ t.m.drover.badBlocks ↔ b ∈ s.m.drover.badBlocks ∨ b ∈ failed) ∧
          Only (fun a b => { a with
            drover := b.drover, islands := b.islands, mgmt := b.mgmt, log := b.log, counters := b.counters }) s t) ∧
    (∀ die : Fin 80, s.m.drover.dieFail.getLsbD die.val = false → s.m.grade ≠ .n → Ends (.vaultDieFailure die) s fun t =>
      t.m.drover.dieFail = s.m.drover.dieFail ||| BitVec.ofNat 80 (2 ^ die.val) ∧ t.m.drover.rebuildPermille = 0 ∧
        (s.m.drover.vault ≠ 3 →
          let lost := ∃ d < 80, dieStripe d = dieStripe die.val ∧ s.m.drover.dieFail.getLsbD d = true ∧ s.m.drover.dieRebuilt.getLsbD d = false
          (lost → t.m.drover.vault = 3) ∧ (¬lost → t.m.drover.vault = 1)) ∧
        t.m.drover.shards = s.m.drover.shards ∧
        Only (fun a b => { a with drover := b.drover, mgmt := b.mgmt, log := b.log, counters := b.counters }) s t) ∧
    (s.m.drover.vault = 1 → Ends .vaultRebuildDone s fun t =>
      t.m.drover = { s.m.drover with dieRebuilt := s.m.drover.dieFail, rebuildPermille := 1000, vault := 0 } ∧ Told t 0xFF0D 0 ∧
        Only (fun a b => { a with drover := b.drover, mgmt := b.mgmt, log := b.log, counters := b.counters }) s t) ∧
    (∀ (block : Nat) (ws : List VaultCodeword), s.m.grade ≠ .n → block ∉ s.m.drover.badBlocks → s.m.reachable [130] = true →
      let aged := (s.m.wake [130]).age ws
      Ends (.vaultRefresh ⟨block, ws⟩) s fun t =>
        Sparse.get 0 block t.m.drover.erases = Sparse.get 0 block s.m.drover.erases + 1 ∧
          (∀ b, b ≠ block → Sparse.get 0 b t.m.drover.erases = Sparse.get 0 b s.m.drover.erases) ∧
          Sparse.get 0 block t.m.drover.reads = 0 ∧ Sparse.get 0 block t.m.drover.programmed = 0 ∧
          t.m.counters = (aged.readCodeword none ⟨block, aged.markOf block⟩).counters ∧
          (t.m.markOf block = if aged.markOf block = .lost then .lost else .decoded 0 0) ∧ t.m.drover.shards = s.m.drover.shards ∧
          Only (fun a b => { a with
            drover := b.drover, islands := b.islands, mgmt := b.mgmt, log := b.log, counters := b.counters }) s t)

namespace Sys2Proof.Claims

/-- The slot of the Drover's barrier over a group, of the group's next sequence, for the last word of a context (R296). -/
def barrierSlot (m : Mach) (c : CtxId) (gid : Nat) (g : Group) (w : WordRec) : QSlot :=
  { uid := w.uid, seq := w.seq, eng := .shuttle, bytes := natLe 64 (place 5 375 372 + place gid 371 360 + place g.expected.toNat 407 376),
    seed := 0, step := w.step, cls := m.classOf c, words := [] }

/-- What a CONTROL record holds is in force for a context: seed, step, next sequence, CONTROL block, region table, windows, groups (R293,
R308). -/
def ControlLoaded (s t : State) (c : CtxId) (k : Control) : Prop :=
  (t.m.ctxs[c]).seed = k.seed ∧ (t.m.ctxs[c]).step = k.step ∧ (t.m.ctxs[c]).expected = BitVec.ofNat 16 k.nextSeq ∧
    t.m.spadRead (s.m.num (ckptIdx c) 3) k.block.length = k.block ∧ t.m.regionTable c = k.regions ∧
    (∀ i < 4, t.m.num (ctxIdx c 4) (i + 1) = k.settings.getD i 0) ∧
    t.m.shut.groups = (s.m.shut.groups.filter fun g => !decide (g.ctx = c)) ++ k.groups

end Sys2Proof.Claims

/-- R142, R296 to R301, R308: a completed STEP_BOUNDARY word releases its context at the next step, or makes it ready for the snapshot
barrier, which joins the line of collectives with the group's next sequence; the next uncopied patch is copied whole into its slot, or,
with an uncorrectable unit in it, fails the snapshot; a held write that waits too long is told; a rollback is taken to a step that a local
slot holds, and at its end loads what the CONTROL record holds, or fails. -/
def Obligations.CheckpointsFollowTheStepBoundary : Prop :=
  ∀ (s : State) (c : CtxId),
    let x := s.m.ctxs[c]
    (∀ uid, x.stepHold = .word uid → x.openWord uid = false → x.st = .enabled → Ends (.stepBoundary c) s fun t =>
      t.m.ctxs[c] = ((if s.m.ckptOn c then { x with stepHold := .ready }
          else { x with step := x.step + 1, stepHold := .none }) : Ctx).noted s.m.nextInLine ∧ OtherCtxs c s t ∧
        Only (fun a b => { a with ctxs := b.ctxs }) s t) ∧
    (∀ w us g own,
      let gid := s.m.num (ckptIdx c) 2
      let q := barrierSlot s.m c gid g w
      let m := ((s.m.wake [130, 128, 126]).cnt 0xC000 130 (some c) us).modCtx c fun x => { x with stepHold := .barrier }
      let next := m.modGroup c gid fun g => { g with expected := g.expected + 1 }
      x.stepHold = .ready → x.st = .enabled → s.m.works = true → s.m.reachable [130, 128, 126] = true → s.m.prevSettled c = true →
      s.m.drover.jobs.any (fun j => decide (j.reads = some (localSlot (x.step.toNat + 1)).val)) = false →
      s.m.foldWaits c = false → s.m.unplanned c = false → x.lastWord = some w → gid < 4096 → s.m.group c gid = some g →
      s.m.collGroup c (parseShut q.bytes) = some (g, own) → next.checkColl (next.makeColl c q true g own) = none →
      Ends (.ckptBarrierStart c us) s fun t =>
        t.m.ctxs[c] = ({ x with stepHold := .barrier } : Ctx).noted s.m.nextInLine ∧
          t.m.group c gid = some { g with expected := g.expected + 1 } ∧
          (∃ k ∈ t.m.shut.colls, k.drover = true ∧ k.key = ⟨c, gid, g.expected⟩ ∧ k.slot = q) ∧ t.m.counters = m.counters ∧
          OtherCtxs c s t ∧ SameMemory s t) ∧
    (∀ ns upset k live slot, s.m.nextPatch = some (k, live, slot) → s.m.drover.heldWrites = [] →
      s.m.reachable (130 :: dramPath (live * patchBytes) patchBytes ++ dramPath (slot * patchBytes) patchBytes) = true →
      (upset = none → s.m.dramBad (live * patchBytes) patchBytes = none → Ends (.patchCopy ns upset) s fun t =>
        DramPut s t (slot * patchBytes) (s.m.dramRead (live * patchBytes) patchBytes) ∧
          (t.m.drover.slots[k]).uncopied = ((s.m.drover.slots[k]).uncopied.filter fun e => !decide (e = (live, slot))) ∧
          (t.m.drover.slots[k]).copied = (s.m.drover.slots[k]).copied + 1 ∧ t.m.ctxs = s.m.ctxs) ∧
      (upset ≠ none ∨ s.m.dramBad (live * patchBytes) patchBytes ≠ none → Ends (.patchCopy ns upset) s fun t =>
        (t.m.drover.slots[k]).st = .failed ∧ Told t 0xFF0A k.val ∧ SameMemory s t ∧ t.m.ctxs = s.m.ctxs)) ∧
    (∀ us, s.m.drover.heldWrites ≠ [] → s.m.num 0x2B00 5 < us → s.m.reachable [130] = true → Ends (.cowStallOverBound us) s fun t =>
      Told t 0xFF09 us ∧
        Only (fun a b => { a with islands := b.islands, mgmt := b.mgmt, log := b.log, counters := b.counters }) s t) ∧
    (∀ ch data, (s.m.drover.ctxs[c]).adopt = none →
      (∀ k, s.m.rollSource c (leNat data) = some k →
        (s.m.ctxIdle c = true → Writes (.ckptRollback ch c data) s ch (ckptIdx c) 0x0A data fun t =>
          (t.m.drover.ctxs[c]).roll = .running ∧ (t.m.drover.ctxs[c]).rollSlot = k.val ∧
            (t.m.drover.ctxs[c]).rollStep = BitVec.ofNat 64 (leNat data) ∧ SameMemory s t) ∧
        (s.m.ctxIdle c = false → Refuses (.ckptRollback ch c data) s ch (ckptIdx c) 0x0A data abState)) ∧
      (s.m.rollSource c (leNat data) = none → Refuses (.ckptRollback ch c data) s ch (ckptIdx c) 0x0A data abRange)) ∧
    ((s.m.drover.ctxs[c]).roll = .running → (s.m.drover.ctxs[c]).restore = none →
      let k : Fin 2 := Fin.ofNat 2 (s.m.drover.ctxs[c]).rollSlot
      let path := 130 :: spadPath (s.m.num (ckptIdx c) 3) 4096
      (∀ ctl m', (s.m.drover.slots[k]).control[c] = some ctl → s.m.reachable path = true →
        (s.m.wake path).copyBack c k = (m', true) → Ends (.rollbackDone c true) s fun t =>
          (t.m.drover.ctxs[c]).roll = .done ∧ ControlLoaded s t c ctl ∧ (t.m.drover.slots[k + 1]).st = .free ∧ t.m.dram = m'.dram ∧
            OtherCtxs c s t) ∧
      Ends (.rollbackDone c false) s fun t => (t.m.drover.ctxs[c]).roll = .failed ∧ Told t 0xFF0B c.val ∧ t.m.ctxs = s.m.ctxs ∧ SameMemory s t)

namespace Sys2Proof.Claims

/-- The next packet to the Drover is a BULK packet of a type, PUT or GET; the Drover and the DRAM that it names can be reached. -/
def BulkNext (s : State) (ty : Nat) (p : Packet) (m1 : Mach) : Prop :=
  s.m.works = true ∧ s.m.takeLocal (s.m.bulkReady ty) = some (p, m1)

/-- A packet was answered with an ACK of a status. -/
def Acked (m1 : Mach) (h : Hdr) (status : Nat) (t : State) : Prop := t.m.net.inject = m1.net.inject ++ m1.held (ackHdr h status) []

end Sys2Proof.Claims

/-- R301, R303, R305, R307, R309, R312, R313: buddy_restream starts the newest snapshot's stream again with its first packet, or its slot
fails; an adopted holder is held for the rollback; an imported slot becomes BUDDIED with the step written. A BULK PUT into its place (an
place changes no memory and is counted. A BULK GET of a settled slot, of a buddy slot or of a good shard is answered with its bytes. -/
def Obligations.BuddySlotsAndBulkPackets : Prop :=
  ∀ (s : State) (c : CtxId) (ch : Channel) (data : Bytes),
    (∀ k, s.m.newestSnap c = some k →
      let far := s.m.rankOf c (s.m.num (ckptIdx c) 4)
      let stop := s.m.imageLen c + controlLen
      let goes := s.m.dramBad (s.m.snapAddr k (s.m.streamAddr c k.val 0)) (min 4096 stop) = none ∧
        ∃ f, far = some f ∧ s.m.canReach clsBulk f.1 = true
      (goes → Writes (.buddyRestream ch c one) s ch (ckptIdx c) 7 one fun t =>
        (t.m.drover.ctxs[c]).buddy = 1 ∧ (t.m.drover.ctxs[c]).stream = some ⟨k.val, 0, stop, false, true⟩ ∧
          (∃ f ∈ t.m.mv.flights, f.owner = .buddy c) ∧ t.m.ctxs = s.m.ctxs ∧ SameMemory s t) ∧
      (¬goes → Writes (.buddyRestream ch c one) s ch (ckptIdx c) 7 one fun t =>
        (t.m.drover.ctxs[c]).buddy = 0 ∧ (t.m.drover.ctxs[c]).stream = none ∧ (t.m.drover.slots[k]).st = .failed ∧
          t.m.ctxs = s.m.ctxs ∧ SameMemory s t)) ∧
    Writes (.ckptAdoptHolder ch c data) s ch (ckptIdx c) 0x0B data (fun t => (t.m.drover.ctxs[c]).adopt = some (leNat data) ∧
      (∀ d, d ≠ c → t.m.drover.ctxs[d] = s.m.drover.ctxs[d]) ∧ t.m.ctxs = s.m.ctxs ∧ SameMemory s t) ∧
    (∀ k : Fin 2, s.m.num (ckptIdx c) 0x0D = k.val →
      ((s.m.drover.slots[k]).st = .free → Writes (.ckptImportDone ch c data) s ch (ckptIdx c) 0x0E data fun t =>
        (t.m.drover.slots[k]).st = .buddied ∧ (t.m.drover.slots[k]).step = BitVec.ofNat 64 (leNat data) ∧
          (t.m.drover.slots[k]).owners = [c] ∧ (t.m.drover.slots[k]).uncopied = [] ∧ SameMemory s t) ∧
      ((s.m.drover.slots[k]).st ≠ .free →
        ¬((s.m.drover.slots[k]).st = .buddied ∧ (s.m.drover.slots[k]).step = BitVec.ofNat 64 (leNat data)) →
        Refuses (.ckptImportDone ch c data) s ch (ckptIdx c) 0x0E data abState)) ∧
    (2 ≤ s.m.num (ckptIdx c) 0x0D → Refuses (.ckptImportDone ch c data) s ch (ckptIdx c) 0x0E data abState) ∧
    (∀ p m1, BulkNext s tyPut p m1 →
      let h := hdrOf p
      let buddy := s.m.inSlot 2 h.addr h.length = true ∨ s.m.inSlot 3 h.addr h.length = true
      (∀ k, bit h.addr 43 = true → m1.stripePeer h = some (c, k) → k = bits h.addr 42 39 → opensPiece h = true →
        Ends .bulkPutReceive s fun t =>
          (∃ buf, t.m.drover.pieces.getLast? =
            some ⟨k, p.payload, [], decide ((Shard.ofHeader p.payload).pieceUnits = 0), buf⟩) ∧
            Acked m1 h 0 t ∧ t.m.ctxs = s.m.ctxs ∧ SameMemory s t) ∧
      (bit h.addr 43 = false → m1.importSlot h = true ∨ (buddy ∧ (m1.buddySource h).isSome = true) →
        s.m.dramPartBad h.addr p.payload.length = none → Ends .bulkPutReceive s fun t =>
          DramPut s t h.addr p.payload ∧ Acked m1 h 0 t ∧ t.m.ctxs = s.m.ctxs) ∧
      (bit h.addr 43 = false → m1.importSlot h = false → ¬buddy ∨ m1.buddySource h = none → Ends .bulkPutReceive s fun t =>
        Acked m1 h Status.windowViolation.code t ∧ t.m.counters = ((m1.bulkWake h).cnt 0xC004 130 (m1.bulkCtx h)).counters ∧
          SameMemory s t ∧ t.m.ctxs = s.m.ctxs)) ∧
    ∀ (p : Packet) (m1 : Mach), BulkNext s tyGet p m1 →
      let h := hdrOf p
      let settled := fun (k : Fin 2) => m1.inSlot k.val h.addr h.length = true ∧
        ((m1.drover.slots[k]).st = .buddied ∨ (m1.drover.slots[k]).st = .committed)
      let answered := fun (b : Bytes) (t : State) => t.m.net = (m1.getRsp h b).net ∧ t.m.ctxs = s.m.ctxs ∧ t.m.drover.slots = s.m.drover.slots ∧
        SameMemory s t
      (∀ (k : Fin 2) m' b, bit h.addr 43 = false → m1.fromStorage h = true → settled k → (k = 1 → ¬settled 0) →
        (m1.bulkWake h).snapFetchAll k h.addr h.length (m1.bulkCtx h) = (m', .ok b) → Ends .bulkGetReceive s (answered b)) ∧
      (∀ f r, bit h.addr 43 = false → m1.fromStorage h = false → m1.bulkCtx h = some c → m1.ctxFold c = some f → f.rankAt h.src = some r →
        m1.inSlot 2 h.addr h.length = true ∨ m1.inSlot 3 h.addr h.length = true → m1.dramBad h.addr h.length = none →
        Ends .bulkGetReceive s (answered (s.m.dramRead h.addr h.length))) ∧
      (∀ k gen tag kind off x, bit h.addr 43 = true → m1.stripePeer h = some (c, k) →
        Config.vaultFields (h.addr % 2 ^ 43) = [gen, tag, kind, off] →
        m1.shardAt (m1.foldId c) gen tag (decide (kind = 1) || decide (kind = 3)) = some x → m1.shardGood x = true →
        allRead (m1.codewordsIn (x.touched (decide (kind < 2)) off h.length)) = true → Ends .bulkGetReceive s (answered (slice off h.length (if kind < 2 then x.header else x.data)))) ∧
      (bit h.addr 43 = false → m1.fromStorage h = false → m1.bulkCtx h = none → Ends .bulkGetReceive s fun t =>
        Acked m1 h Status.windowViolation.code t ∧ SameMemory s t ∧ t.m.ctxs = s.m.ctxs)
/-! ### Fabric links -/

namespace Sys2Proof.Claims

/-- Link l is in a state, every other link is in the state it was in, and no memory or context has changed. -/
def LinkNow (s t : State) (l : LinkId) (st : LinkState) : Prop :=
  (t.m.links[l]).st = st ∧ (∀ k : LinkId, k ≠ l → (t.m.links[k]).st = (s.m.links[k]).st) ∧ t.m.ctxs = s.m.ctxs ∧ SameMemory s t

/-- The newest message sent, the others being those sent before. -/
def Says (s t : State) (o : Out) : Prop := t.m.out = o :: s.m.out

/-- Link l is as a function makes it, and nothing but that link has changed. -/
def LinkOnly (s t : State) (l : LinkId) (f : Link → Link) : Prop :=
  t.m.links[l] = f s.m.links[l] ∧ OtherLinks l s t ∧ Only (fun a b => { a with links := b.links }) s t

/-- Link l is as a function makes it, and has sent a base-rate training frame with its new content on each of its four lanes; nothing else
has changed (R229 to R231). -/
def Framed (s t : State) (l : LinkId) (f : Link → Link) : Prop :=
  let m := s.m.modLink l f
  let k := f s.m.links[l]
  t.m.links[l] = { k with frameCount := k.frameCount + 1, stepSent := if k.agreed then k.stepSent + 1 else k.stepSent } ∧
    t.m.out = ([3, 2, 1, 0].map fun (i : Fin 4) => Out.frame l i 0 (frameBits (m.ownContent l i))) ++ s.m.out ∧
    OtherLinks l s t ∧ Only (fun a b => { a with links := b.links, out := b.out }) s t

/-- A row of a link has run to this: the link's island can take work. -/
def LinkUp (s : State) (l : LinkId) : Prop := s.m.reachable [linkIsland l] = true

end Sys2Proof.Claims

/-- R228 to R235: each training row moves its link from the state of the table of R231 to the next, or back to DETECT, or to HELD, and
moves no other link. Received bits that are no frame change nothing, a frame whose crc16 fails is counted, and the steps of the FFE that
good frames ask for stay inside the bounds of R235. At the end of its CHECK a side judges it by its codewords, its error ratio and the
neighbour's identity and sends the result; when both passed at the final rate the link enters L0; below it, it proposes the next rate;
when one failed it falls back a rate, or to DETECT. -/
def Obligations.TrainingMovesOneLink : Prop :=
  (∀ (s : State) (l : LinkId),
    let k := s.m.links[l]
    (k.st = .detect → Ends (.linkSignalDetect l) s fun t => Framed s t l fun k => { k with st := .baseAlign }) ∧
    (k.st ≠ .disabled → k.st ≠ .l1 → k.st ≠ .ls → Ends (.lossOfSignal l) s fun t => LinkNow s t l .detect) ∧
    (∀ (map : List (Fin 4)) (inv : BitVec 4) (skew : Nat), k.st = .baseAlign → map.length = 4 → map.Nodup →
      (skew ≤ 32 → Ends (.baseAlignComplete l map inv skew) s fun t =>
        Framed s t l fun k => { k with st := .exchange, laneMap := map, inverted := inv }) ∧
      (32 < skew → Ends (.baseAlignComplete l map inv skew) s fun t => LinkNow s t l .detect)) ∧
    (∀ f : LaneFrame, LinkUp s l →
      let got := frameContent (if k.inverted.getLsbD f.lane.val then f.bits.map not else f.bits)
      (got = none → Ends (.trainingFrame l f) s fun t => Only (fun a b => { a with islands := b.islands }) s t) ∧
      (∀ content : BitVec 256, got = some content →
        let n := content.toNat
        let good := bits n 255 240 = contentCrc (n % 2 ^ 240)
        let i : Fin 4 := Fin.ofNat 4 (bits n 87 86)
        (k.st = .exchange ∨ k.st = .equalise ∨ k.st = .check ∨ k.st = .retrain → ¬good → Ends (.trainingFrame l f) s fun t =>
          t.m.counters = ((s.m.wake [linkIsland l]).linkCount 0x5007 l).counters ∧
            Only (fun a b => { a with counters := b.counters, islands := b.islands }) s t) ∧
        (k.st = .exchange → good → ∀ b r x, s.m.identify l n = (some b, r, x) → Ends (.trainingFrame l f) s fun t =>
          LinkNow s t l .equalise ∧ (t.m.links[l]).nbr = content ∧ (t.m.links[l]).rate = 0 ∧
            (t.m.links[l]).targetRate = ((s.m.modLink l fun k => { k with nbr := content }).rateBelow l 4).getD 0 ∧
            (bits n 127 112 = (s.m.net.bundles[b]).epoch.toNat → l ∈ (t.m.net.bundles[b]).members)) ∧
        (k.st = .exchange → good → ∀ r x, s.m.identify l n = (none, r, x) → Ends (.trainingFrame l f) s fun t =>
          LinkNow s t l .held ∧ (t.m.links[l]).heldReason = r ∧ (t.m.links[l]).nbr = content) ∧
        (k.st = .retrain → good → Ends (.trainingFrame l f) s fun t => LinkNow s t l .equalise) ∧
        (k.st = .equalise → good → Ends (.trainingFrame l f) s fun t =>
          LinkNow s t l .equalise ∧
            (t.m.links[l]).ffe[i] = (ffeStep k.ffe[i] (ffePreset (s.m.num (0x2600 + l.val) 0x11)) (bits n 101 100) (bits n 99 98)).1 ∧
            (∀ j, j ≠ i → (t.m.links[l]).ffe[j] = k.ffe[j]) ∧
            (t.m.links[l]).eqQuiet[i] = (if bits n 101 100 = 3 ∧ f.ask.1 = 3 then k.eqQuiet[i] + 1 else 0)) ∧
        (k.st = .check → good → k.stepReady = true → Ends (.trainingFrame l f) s fun t =>
          LinkNow s t l .check ∧ (t.m.links[l]).stepSeen[i] =
            (if bits n 105 102 = 13 ∧ bits n 107 106 = k.targetRate then k.stepSeen[i] + 1 else 0)))) ∧
    (∀ set, k.st = .equalise → (∀ i : Fin 4, 64 ≤ k.eqQuiet[i]) → Ends (.equaliseConverged l set) s fun t =>
      LinkNow s t l .check ∧ Sparse.find k.rate (t.m.links[l]).eqStored = some (k.ffeNums ++ s.m.rxSettings l set)) ∧
    (k.st = .check → k.stepReady = true → (∀ i : Fin 4, 8 ≤ k.stepSeen[i]) → Ends (.rateStepSwitch l) s fun t =>
      LinkNow s t l .rateStep ∧ (t.m.links[l]).rate = k.targetRate ∧ t.m.out.length = s.m.out.length + 4 * (8 - k.stepSent)) ∧
    (k.st = .rateStep ∨ (k.st = .ls ∧ k.fromLs = true) → Ends (.rateStepLocked l) s fun t =>
      LinkNow s t l .equalise ∧ (t.m.links[l]).rate = k.rate) ∧
    (k.st.training = true → Ends (.linkTrainTimeout l) s fun t => LinkNow s t l .detect) ∧
    (k.flows = true → Ends (.linkCwBadLimit l) s fun t => LinkNow s t l .retrain ∧ (t.m.links[l]).replay = k.replay) ∧
    (k.st = .retrain ∨ (k.fromRetrain = true ∧ k.st.training = true) → Ends (.linkRetrainHoldExpiry l) s fun t => LinkNow s t l .detect)) ∧
  (∀ (p : Nat × Nat) (n tap req : Nat), p.1 ≤ 16 → p.2 ≤ 24 → p.1 + p.2 ≤ 32 →
    let r := (ffeStep p (ffePreset n) tap req).1
    r.1 ≤ 16 ∧ r.2 ≤ 24 ∧ r.1 + r.2 ≤ 32) ∧
  ∀ (s : State) (l : LinkId),
    let k := s.m.links[l]
    let same := match k.identContent with
      | some n => decide (identityOf n = identityOf k.nbr.toNat)
      | none => false
    let ok := decide (k.checkBad = 0) && decide (k.checkSer * 10 ^ 9 ≤ s.m.num 0x2630 4 * k.checkSymbols) && same
    let final := k.fromRetrain = true ∨ k.fromLs = true ∨ k.fallback = true ∨ k.targetRate ≤ k.rate
    k.st = .check → k.stepReady = false →
    (k.checkOwn = none → k.checkNbr = none → same = true ∨ (k.fromRetrain = false ∧ k.fromLs = false) → Ends (.linkCheckEnd l) s fun t =>
      Says s t (.checkBlock l ok) ∧ t.m.links[l] = { k with checkOwn := some ok } ∧ OtherLinks l s t ∧
        Only (fun a b => { a with links := b.links, out := b.out }) s t) ∧
    (∀ n, k.checkOwn = none → k.fromRetrain = true ∨ k.fromLs = true → k.identContent = some n → identityOf n ≠ identityOf k.nbr.toNat →
      Ends (.linkCheckEnd l) s fun t =>
        LinkNow s t l .held ∧ (t.m.links[l]).heldReason = s.m.holdReason l n ∧ (t.m.links[l]).nbr = BitVec.ofNat 256 n) ∧
    (∀ pass, k.checkOwn = none → Ends (.checkBlock l pass) s fun t => LinkOnly s t l fun k => { k with checkNbr := some pass }) ∧
    (k.checkOwn = some true → final → k.retrainHeld = false → Ends (.checkBlock l true) s fun t => LinkNow s t l .l0) ∧
    (k.checkOwn = some true → final → k.retrainHeld = true → Ends (.checkBlock l true) s fun t =>
      LinkNow s t l .held ∧ (t.m.links[l]).heldReason = 4) ∧
    (k.checkOwn = some true → ¬final → Ends (.checkBlock l true) s fun t =>
      LinkNow s t l .check ∧ (t.m.links[l]).stepReady = true ∧ (t.m.links[l]).passed = k.rate) ∧
    (k.checkOwn = some true → s.m.rateBelow l k.rate = none → Ends (.checkBlock l false) s fun t => LinkNow s t l .detect) ∧
    (∀ r, k.checkOwn = some true → s.m.rateBelow l k.rate = some r → Ends (.checkBlock l false) s fun t =>
      LinkNow s t l .rateStep ∧ (t.m.links[l]).rate = r ∧ (t.m.links[l]).fallback = true)

/-- R222 to R227, R239, R248: a bad codeword is discarded whole and asks for a replay; a good one without data takes the marker's
acknowledgement and credits: the flits that it covers leave the replay buffer. A link in TEST takes no codeword: in a far-end loopback its
symbols go back unchanged. Flits that stay unacknowledged are sent again, and after link_replay_limit replays the link retrains. -/
def Obligations.CodewordsAcknowledgeFlits : Prop :=
  ∀ (s : State) (l : LinkId) (w : List (BitVec 10)),
    let k := s.m.links[l]
    let d := decodeCodeword k.rxScram w
    let counts := ((s.m.wake [linkIsland l]).linkCount 0x5000 l d.corrected)
    (LinkUp s l → k.st = .l0 → d.good = false → Ends (.codewordReceive l w) s fun t =>
      t.m.links[l] = { k with rxScram := d.scram, rxPart := none, rxWaiting := true, sendNak := true } ∧ OtherLinks l s t ∧
        t.m.counters = (counts.linkCount 0x5001 l).counters ∧
        Only (fun a b => { a with links := b.links, counters := b.counters, islands := b.islands }) s t) ∧
    (LinkUp s l → k.st = .l0 → d.good = true → (∀ b ∈ d.blocks, b.sync ≠ 1 ∧ (b.sync = 2 → bits b.payload.toNat 63 56 = 0)) →
      bits d.marker 29 28 = 1 →
      let ack : BitVec 12 := BitVec.ofNat 12 (bits d.marker 41 30)
      let v : VcId := Fin.ofNat 8 (bits d.marker 8 6)
      (ack - k.lastAck).toNat ≤ (k.txSeq - 1 - k.lastAck).toNat → Ends (.codewordReceive l w) s fun t =>
        (t.m.links[l]).st = .l0 ∧ (t.m.links[l]).lastAck = ack ∧ (t.m.links[l]).replay = k.replay.drop (ack - k.lastAck).toNat ∧
          (t.m.links[l]).sent[v] = k.sent[v] - bits d.marker 5 0 ∧ (∀ u, u ≠ v → (t.m.links[l]).sent[u] = k.sent[u]) ∧
          (t.m.links[l]).rxSeq = k.rxSeq ∧ OtherLinks l s t ∧ t.m.counters = counts.counters ∧
          Only (fun a b => { a with links := b.links, counters := b.counters, islands := b.islands }) s t) ∧
    (LinkUp s l → k.st = .test → s.m.num (0x2600 + l.val) 0x18 = 5 → Ends (.codewordReceive l w) s fun t =>
      Says s t (.looped l w) ∧ Only (fun a b => { a with out := b.out, islands := b.islands }) s t) ∧
    (k.st = .l0 → k.replay ≠ [] →
      (k.replays < s.m.num 0x2630 6 → Ends (.linkAckTimeout l) s fun t =>
        Says s t (.linkReplay l (k.lastAck + 1)) ∧ t.m.links[l] = { k with replays := k.replays + 1 } ∧ OtherLinks l s t ∧
          t.m.counters = (s.m.linkCount 0x5002 l).counters ∧
          Only (fun a b => { a with links := b.links, counters := b.counters, out := b.out }) s t) ∧
      (s.m.num 0x2630 6 ≤ k.replays → Ends (.linkAckTimeout l) s fun t => LinkNow s t l .retrain ∧ (t.m.links[l]).replay = k.replay))

/-- R231, R236, R237, R239, R240: the rows of L1 and Ls ask, agree, refuse, wake and give up as the rules say, each moving its own link
alone; link_enable, link_reset, test_mode and inject take effect as their objects say; a test mode outside its states or range, and an
unknown kind of injection, are refused. -/
def Obligations.LinkPowerAndObjectsTakeEffect : Prop :=
  (∀ (s : State) (l : LinkId) (ch : Channel),
    let k := s.m.links[l]
    (s.m.mayL1 l = true → k.reqSent = false → Ends (.l1IdleTimeout l) s fun t =>
      Says s t (.power l 1) ∧ t.m.links[l] = { k with reqSent := true } ∧ OtherLinks l s t ∧
        Only (fun a b => { a with links := b.links, out := b.out }) s t) ∧
    (k.st = .l0 → k.reqSent = true → (Ends (.l1Req l) s fun t => LinkNow s t l .l1 ∧ t.m.out = s.m.out) ∧
      Ends (.l1Ack l) s fun t => LinkNow s t l .l1 ∧ t.m.out = s.m.out) ∧
    (k.reqSent = false → s.m.mayL1 l = true → Ends (.l1Req l) s fun t => LinkNow s t l .l1 ∧ Says s t (.power l 2)) ∧
    (k.st = .l0 → k.reqSent = false → s.m.mayL1 l = false → Ends (.l1Req l) s fun t =>
      Says s t (.power l 3) ∧ Only (fun a b => { a with out := b.out }) s t) ∧
    Ends (.l1Nak l) s (fun t => LinkOnly s t l fun k => { k with reqSent := false }) ∧
    (k.st = .l1 → (Ends (.l1Keepalive l) s fun t => Says s t (.idle l) ∧ Only (fun a b => { a with out := b.out }) s t) ∧
      Ends (.l1Exit l) s fun t => LinkNow s t l .l0 ∧ t.m.out = s.m.out) ∧
    (k.flows = true → Writes (.powerRequestLs ch l) s ch (0x2600 + l.val) 0x21 [2] fun t =>
      t.m.out.tail = .power l 4 :: s.m.out ∧ t.m.num (0x2600 + l.val) 0x21 = 2 ∧ t.m.links = s.m.links) ∧
    (k.st = .ls → k.fromLs = false → (Writes (.powerRequestL0 ch l) s ch (0x2600 + l.val) 0x21 [0] fun t =>
        LinkNow s t l .ls ∧ (t.m.links[l]).fromLs = true ∧ t.m.num (0x2600 + l.val) 0x21 = 0) ∧
      Ends (.lsWake l) s fun t => Framed s t l fun k => { k with fromLs := true }) ∧
    (k.flows = true → (k.replay = [] → Ends (.lsReq l) s fun t => LinkNow s t l .ls ∧ Says s t (.power l 5)) ∧
      (k.replay ≠ [] → Ends (.lsReq l) s fun t => Says s t (.power l 6) ∧ Only (fun a b => { a with out := b.out }) s t) ∧
      (s.m.wantsLs l = true → (Ends (.lsAck l) s fun t => LinkNow s t l .ls ∧ t.m.out = s.m.out) ∧
        Ends (.lsNak l) s fun t => Says s t (.power l 4) ∧ Only (fun a b => { a with out := b.out }) s t)) ∧
    (s.m.wantsLs l = false → exec (.lsNak l) s = .next s) ∧
    (k.fromLs = true → k.st = .ls ∨ k.st.training = true → Ends (.lsWakeTimeout l) s fun t => LinkNow s t l .detect)) ∧
  ∀ (s : State) (l : LinkId) (ch : Channel) (data : Bytes),
    let k := s.m.links[l]
    let i := 0x2600 + l.val
    let free := k.st = .disabled ∨ k.st = .held ∨ k.st = .detect
    let again := fun (m : Mach) => if m.mayTrain l then LinkState.detect else .disabled
    (k.st = .disabled → (s.m.setObj i 2 (.num 1)).mayTrain l = true → Writes (.linkEnable ch l) s ch i 2 [1] fun t => LinkNow s t l .detect) ∧
    Writes (.linkDisable ch l) s ch i 2 [0] (fun t => LinkNow s t l .disabled ∧ (t.m.links[l]).replay = [] ∧ (t.m.links[l]).inBuf = []) ∧
    Writes (.linkReset ch l one) s ch i 0x22 one (fun t => LinkNow s t l (again s.m)) ∧
    (free → 1 ≤ leNat data → leNat data ≤ 5 → Writes (.testMode ch l data) s ch i 0x18 data fun t => LinkNow s t l .test) ∧
    (k.st = .test → leNat data = 0 → Writes (.testMode ch l data) s ch i 0x18 data fun t =>
      LinkNow s t l (again (s.m.setObj i 0x18 (.num 0)))) ∧
    (5 < leNat data → Refuses (.testMode ch l data) s ch i 0x18 data abRange) ∧
    (¬free → k.st ≠ .test ∨ leNat data ≠ 0 → leNat data ≤ 5 → Refuses (.testMode ch l data) s ch i 0x18 data abState) ∧
    (bits (leNat data) 31 28 ≤ 2 → Writes (.inject ch l data) s ch i 0x19 data fun t =>
      t.m.num i 0x19 = leNat data ∧ t.m.links[l] = { k with injectBits := 0 } ∧ OtherLinks l s t ∧ SameMemory s t) ∧
    (2 < bits (leNat data) 31 28 → Refuses (.inject ch l data) s ch i 0x19 data abRange)

/-! ### The fabric network -/

namespace Sys2Proof.Claims

/-- The scratchpad bytes from a to a + b.length − 1 are b, and every other byte of scratchpad and DRAM reads as before. -/
def SpadPut (s t : State) (a : Nat) (b : Bytes) : Prop :=
  t.m.spadRead a b.length = b ∧ (∀ x, x < a ∨ a + b.length ≤ x → t.m.spadRead x 1 = s.m.spadRead x 1) ∧ t.m.dram = s.m.dram

/-- An answer to a packet has joined the packets that wait for injection, behind all others. -/
def Answers (s t : State) (h : Hdr) (status : Nat) : Prop :=
  t.m.net.inject = s.m.net.inject ++ s.m.held (ackHdr h status) []

end Sys2Proof.Claims

/-- R246, R248 to R250, R253 to R255, R263, R320: a packet of a link in no bundle is dropped and counted; the next packet in order that is
for this module joins those that wait for their consumer, and keeps its place in the input buffer; a routed one whose turn it is leaves
for the member with credit, or, where its route entry fails its parity, is dropped and counted; so does a packet of the local engines. A
link sends the packet that the deficit round robin picks where its replay buffer has room, and none where that is full. A sequence number
that does not come is skipped. -/
def Obligations.PacketsMoveOneHop : Prop :=
  ∀ (s : State) (l : LinkId) (b : BundleId) (v : VcId),
    let k := s.m.links[l]
    let g := s.m.net.bundles[b]
    let woken := (s.m.wake [126]).wake (linkPath l)
    (∀ p rest, s.m.reachable (linkPath l) = true → k.arrived = p :: rest → vcOf (hdrOf p).cls (hdrOf p).sub = some v →
      s.m.bundleOf l = none → Ends (.packetReceive l) s fun t =>
        t.m.links[l] = { k with arrived := rest }.owe ⟨v, p⟩ ∧ OtherLinks l s t ∧
          t.m.counters = ((s.m.wake (linkPath l)).netCount 0x800A (some l) none (some v)).counters ∧
          Only (fun a b => { a with links := b.links, counters := b.counters, islands := b.islands }) s t) ∧
    (∀ p rest,
      let h := hdrOf p
      s.m.reachable (linkPath l) = true → k.arrived = p :: rest → vcOf h.cls h.sub = some v → s.m.bundleOf l = some b →
      BundleSt.open g.st = true → BitVec.ofNat 12 h.bseq = g.rxSeq[v] → h.bseq < 4096 → g.gone = [] →
      (∀ j ∈ g.members, (s.m.links[j]).inBuf = []) → malformed h = false → g.admits h = true → h.dst = s.m.net.own →
      pktCrcOk p = true → h.ty = tyAck → Ends (.packetReceive l) s fun t =>
        t.m.net.localRx = s.m.net.localRx ++ [⟨p, some (l, v)⟩] ∧ (t.m.net.bundles[b]).rxSeq[v] = g.rxSeq[v] + 1 ∧
          t.m.links[l] = { k with arrived := rest } ∧ OtherLinks l s t ∧
          Only (fun a b => { a with links := b.links, net := b.net, islands := b.islands }) s t) ∧
    (∀ x w i,
      let h := hdrOf x.pkt
      let e := s.m.routeOf x.pkt
      let far := outBundle e
      let mark := decide (s.m.num (0x2640 + far.val) 0x0C < s.m.waitingFlits far w - pktFlits x.pkt)
      let p := rehop x.pkt (outSub e) (h.hops + 1) (h.cm || mark) 0
      s.m.reachable (linkPath l) = true → s.m.bundleOf l = some b → s.m.headAt (some l) v = some x → outSub e ≠ 3 →
      BundleSt.open (s.m.net.bundles[far]).st = true → vcOf h.cls (outSub e) = some w → s.m.hasTurn far w (some l) = true →
      ((woken.leaveInput l x).nextSeq b v).spray far w (pktFlits p) = some i →
      (Ends (.packetForward (some l) ⟨v, none⟩) s fun t =>
        (t.m.links[i]).txQ = (s.m.links[i]).txQ ++ [⟨w, p⟩] ∧ SameMemory s t) ∧
      (k.inBuf = [x] → (∀ j ∈ g.members, j ≠ l → (s.m.links[j]).inBuf = []) → g.gone = [] →
        (Ends (.packetForward (some l) ⟨v, none⟩) s fun t =>
          (t.m.links[i]).txQ = (s.m.links[i]).txQ ++ [⟨w, p⟩] ∧ (t.m.links[l]).inBuf = [] ∧
            (t.m.net.bundles[b]).rxSeq[v] = g.rxSeq[v] + 1 ∧
            Only (fun a b => { a with links := b.links, net := b.net, counters := b.counters, islands := b.islands }) s t) ∧
        Ends (.packetForward (some l) ⟨v, some .routeParity⟩) s fun t =>
          (t.m.links[l]).inBuf = [] ∧ (t.m.net.bundles[b]).rxSeq[v] = g.rxSeq[v] + 1 ∧ OtherLinks l s t ∧
            t.m.counters = (woken.netCount 0x800B (some l) (some b) (some v)).counters ∧
            Only (fun a b => { a with links := b.links, net := b.net, counters := b.counters, islands := b.islands }) s t)) ∧
    (∀ x w i,
      let p := mkPacket { hdrOf x.pkt with rbank := s.m.net.bank } x.pkt.payload
      let h := hdrOf p
      let e := s.m.routeOf p
      let far := outBundle e
      let q := rehop p (outSub e) h.hops h.cm 0
      s.m.reachable [126] = true → s.m.headAt none v = some x → h.dst ≠ s.m.net.own → outSub e ≠ 3 →
      (Sparse.get (0 : BitVec 16) (turnIndex h.rbank 16 h.sub (outSub e)) s.m.net.turns).getLsbD far.val = true →
      BundleSt.open (s.m.net.bundles[far]).st = true → vcOf h.cls (outSub e) = some w →
      (∀ o ∈ s.m.outputOf s.m.net.bank (hdrOf x.pkt), s.m.hasTurn o.1 o.2 none = true) →
      (s.m.wake [126]).spray far w (pktFlits q) = some i → Ends (.packetForward none ⟨v, none⟩) s fun t =>
        (t.m.links[i]).txQ = (s.m.links[i]).txQ ++ [⟨w, q⟩] ∧ t.m.net.inject = s.m.net.inject.erase x ∧ OtherLinks i s t ∧
          Only (fun a b => { a with links := b.links, net := b.net, islands := b.islands }) s t) ∧
    (∀ i h d,
      let fresh := if k.mgtSince + 10000 ≤ s.m.now then { k with mgtFlits := 0, mgtSince := s.m.now / 10000 * 10000 } else k
      let ready := fun (h : Held) => decide (s.m.uncredited b h.vc < 2047)
      let p := rehop h.pkt (hdrOf h.pkt).sub (hdrOf h.pkt).hops (hdrOf h.pkt).cm (g.txSeq[h.vc]).toNat
      let n := (flitsOf p).length
      s.m.reachable (linkPath l) = true → s.m.bundleOf l = some b → k.st = .l0 → k.txNow = none → k.txQ ≠ [] →
      (∀ h ∈ k.txQ, h.vc ≠ 7) →
      fresh.drr (fun (i : Fin 4) => bits (s.m.num 0x2500 0x0A) (8 * i.val + 7) (8 * i.val)) ready 66 = some (i, h, d) →
      let begun := fun (t : State) => (t.m.links[l]).txQ = k.txQ.erase h ∧ (t.m.links[l]).deficit = d ∧
        (t.m.net.bundles[b]).txSeq[h.vc] = g.txSeq[h.vc] + 1 ∧ OtherLinks l s t ∧ SameMemory s t
      (k.replay.length + n ≤ 1024 → Ends (.linkOutputArbitrate l) s fun t =>
        t.m.out = .packet l p :: s.m.out ∧ (t.m.links[l]).txNow = none ∧ (t.m.links[l]).replay.length = k.replay.length + n ∧
          (t.m.links[l]).txSeq = k.txSeq + BitVec.ofNat 12 n ∧ begun t) ∧
      (1024 ≤ k.replay.length → Ends (.linkOutputArbitrate l) s fun t =>
        t.m.out = s.m.out ∧ (t.m.links[l]).txNow = some p ∧ (t.m.links[l]).replay = k.replay ∧
          t.m.counters = ((s.m.wake (linkPath l)).count ⟨0x5004, 92 + l.val / 4, none, some l, none, none⟩).counters ∧ begun t)) ∧
    (s.m.dueAt b v = none → (∃ j ∈ g.members, ∃ h ∈ (s.m.links[j]).inBuf, h.vc = v) →
      (∀ j ∈ g.members, (s.m.links[j]).st ≠ .retrain ∧ (s.m.links[j]).rxWaiting = false ∧
        ∀ h ∈ (s.m.links[j]).inBuf, h.vc = v → (hdrOf h.pkt).bseq ≠ (g.rxSeq[v] + 1).toNat) →
      (v, g.rxSeq[v] + 1) ∉ g.gone → Ends (.bundleReseqTimeout b v) s fun t =>
        (t.m.net.bundles[b]).rxSeq[v] = g.rxSeq[v] + 1 ∧ t.m.counters = (s.m.netCount 0x8008 none (some b) (some v)).counters ∧
          Only (fun a b => { a with net := b.net, counters := b.counters }) s t)

/-- R85, R102, R104, R112, R138, R248, R263: a PUT in its context's window writes its bytes, and nothing else, and is answered; one
outside is answered WINDOW_VIOLATION and writes nothing; a GET is answered with the bytes it names, or UNCORRECTABLE; a TOKEN goes to
every target of an ENABLED context, and to none where a count would pass 65,535; a repeated one, and one for a context that does not run,
are answered without being applied; an ACK lands its packet and counts toward its slot, as does the data of a GET; management packets are
taken in order. -/
def Obligations.RemoteAccessesAreAnswered : Prop :=
  ∀ (s : State) (c : CtxId) (p : Packet) (m1 : Mach),
    let h := hdrOf p
    let put := s.m.takeLocal fun h => decide (h.ty = tyPut) && decide (h.cls ≠ clsBulk)
    (s.m.works = true → s.m.inboundWaits = false → put = some (p, m1) →
      (s.m.rxCtx h = some c → s.m.rxInWindow c h = true → s.m.reachable (rxPath h) = true → (s.m.pools[(0 : PoolId)]).waiting = [] →
        s.m.bpmFits 0 (rqCtx c) 1 = true →
        (h.dram = false → s.m.spadPartBad h.addr p.payload.length = none → Ends .putReceive s fun t =>
          SpadPut s t h.addr p.payload ∧ Answers s t h 0 ∧ t.m.ctxs = s.m.ctxs) ∧
        (h.dram = true → s.m.mustHold h.addr p.payload.length = false → s.m.dramPartBad h.addr p.payload.length = none →
          Ends .putReceive s fun t => DramPut s t h.addr p.payload ∧ Answers s t h 0 ∧ t.m.ctxs = s.m.ctxs)) ∧
      (s.m.rxCtx h = some c → s.m.rxInWindow c h = false → Ends .putReceive s fun t =>
        Answers s t h Status.windowViolation.code ∧ t.m.counters = (s.m.cnt 0xB002 129 (some c)).counters ∧
          Only (fun a b => { a with net := b.net, counters := b.counters, links := b.links }) s t)) ∧
    (s.m.works = true → s.m.takeLocal (fun h => decide (h.ty = tyGet) && decide (h.cls ≠ clsBulk)) = some (p, m1) → s.m.rxCtx h = some c →
      let answered := fun (b : Bytes) (t : State) => t.m.net = (m1.getRsp h b).net ∧ SameMemory s t ∧ t.m.ctxs = s.m.ctxs ∧
        t.m.dict = s.m.dict
      let lost := fun (t : State) => Answers s t h Status.uncorrectable.code ∧ SameMemory s t ∧ t.m.ctxs = s.m.ctxs
      (s.m.rxInWindow c h = true → s.m.reachable (rxPath h) = true →
        (h.dram = false → (s.m.spadBad h.addr h.length = none → Ends .getReceive s (answered (s.m.spadRead h.addr h.length))) ∧
          (s.m.spadBad h.addr h.length ≠ none → Ends .getReceive s lost)) ∧
        (h.dram = true → (s.m.dramBad h.addr h.length = none → Ends .getReceive s (answered (s.m.dramRead h.addr h.length))) ∧
          (s.m.dramBad h.addr h.length ≠ none → Ends .getReceive s lost))) ∧
      (s.m.rxInWindow c h = false → Ends .getReceive s fun t =>
        Answers s t h Status.windowViolation.code ∧ t.m.counters = (s.m.cnt 0xB002 129 (some c)).counters ∧
          Only (fun a b => { a with net := b.net, counters := b.counters, links := b.links }) s t)) ∧
    (s.m.works = true → s.m.reachable [132, 126] = true →
      (s.m.wake [132, 126]).takeLocal (fun h => decide (h.ty = tyToken)) = some (p, m1) → s.m.rxCtx h = some c →
      let known := (s.m.net.remember s.m.now).any fun e =>
        decide (e.1 = h.src.toNat) && decide (e.2.1 = h.ctx) && decide (e.2.2.1 = h.tag)
      let mask := bits h.token 17 12
      let id := bits h.token 11 0
      let x := s.m.ctxs[c]
      let void := x.st ≠ .enabled ∨ (s.m.grade = .n ∧ bit mask 4 = true) ∨ x.voided.contains (h.src.toNat, h.tag) = true
      (known = true → Ends .tokenReceive s fun t =>
        Answers s t h 0 ∧ t.m.ctxs = s.m.ctxs ∧ t.m.counters = (m1.cnt 0xE006 132 (some c)).counters ∧ SameMemory s t) ∧
      (known = false → void → Ends .tokenReceive s fun t =>
        Answers s t h 0 ∧ (t.m.ctxs[c]).heddle = x.heddle ∧ OtherCtxs c s t ∧ t.m.counters = (m1.cnt 0xE005 132 (some c)).counters ∧
          SameMemory s t) ∧
      (known = false → ¬void → x.overflows mask id = none → Ends .tokenReceive s fun t =>
        t.m.ctxs[c] = (x.emit mask id).noted s.m.nextInLine ∧ OtherCtxs c s t ∧ Answers s t h 0 ∧
          (h.src.toNat, h.ctx, h.tag, s.m.now) ∈ t.m.net.tokens ∧
          Only (fun a b => { a with ctxs := b.ctxs, net := b.net, links := b.links, islands := b.islands }) s t) ∧
      (∀ e, known = false → ¬void → x.overflows mask id = some e → Ends .tokenReceive s fun t =>
        Answers s t h Status.tokenOverflow.code ∧ Only (fun a b => { a with net := b.net, links := b.links, islands := b.islands }) s t)) ∧
    (∀ f uid j, s.m.takeLocal (fun h => decide (h.ty = tyAck)) = some (p, m1) → m1.flightOf h = some f → f.owner = .slot c uid →
      s.m.reachable [129, 126] = true → h.status = 0 → (hdrOf f.pkt).ty ≠ tyGet → s.m.moveJob c uid = some j →
      (parseMove j.slot.bytes).remoteTargets = 0 → Ends .ackReceive s fun t =>
        (∃ k, t.m.moveJob c uid = some k ∧ k.outstanding = j.outstanding - 1 ∧ k.nextPiece = j.nextPiece) ∧
          (∀ g ∈ t.m.mv.flights, g.tag ≠ f.tag) ∧ t.m.ctxs = s.m.ctxs ∧ SameMemory s t) ∧
    (∀ f uid j, s.m.takeLocal (fun h => decide (h.ty = tyGetRsp)) = some (p, m1) → m1.flightOf h = some f → f.owner = .slot c uid →
      s.m.reachable [129, 126] = true → (hdrOf f.pkt).ty = tyGet → (hdrOf f.pkt).length = h.length → f.answer = none →
      s.m.moveJob c uid = some j → (parseMove j.slot.bytes).uncut = false → (parseMove j.slot.bytes).acc = false →
      s.m.spadPartBad f.toAddr p.payload.length = none → Ends .getRspReceive s fun t =>
        SpadPut s t f.toAddr p.payload ∧ (∃ k, t.m.moveJob c uid = some k ∧ k.outstanding = j.outstanding - 1) ∧
          (∀ g ∈ t.m.mv.flights, g.tag ≠ f.tag) ∧ t.m.ctxs = s.m.ctxs) ∧
    (s.m.mgmtUp = true → Ends .mgtReceive s fun t =>
      t.m.mgmt = { s.m.mgmt with mgtRx := s.m.mgmt.mgtRx.tail } ∧ Only (fun a b => { a with mgmt := b.mgmt }) s t)

/-- R259, R260: a link event that brings something new puts the route into REBUILDING; a route is built into the inactive bank only and
reported, and a drained old bank is reported later; the coordinator keeps the others' reports. A switch, direct only where the union of
both graphs has no cycle and ordered only when every module has reported, makes that bank the one in use; before, nothing changes. -/
def Obligations.RouteIsBuiltThenSwitched : Prop :=
  ∀ s : State,
    (∀ (p : Coord) (rs : List BundleRep), s.m.mgmtUp = true → p ≠ s.m.net.own → Ends (.linkEvent p rs) s fun t =>
      Sparse.find p.toNat t.m.net.linkMap = some rs ∧ (Sparse.find p.toNat s.m.net.linkMap ≠ some rs → t.m.net.rebuilding = true) ∧
        t.m.net.bank = s.m.net.bank ∧ t.m.links = s.m.links ∧ t.m.ctxs = s.m.ctxs ∧ SameMemory s t) ∧
    (s.m.net.rebuilding = true → s.m.mgmtUp = true →
      let told := fun (direct drained : Bool) (t : State) => t.m.net.toldDrained = drained ∧
        (s.m.coordinator = s.m.net.own →
          Sparse.find s.m.net.own.toNat t.m.net.reports = some ⟨s.m.net.own, direct, drained⟩)
      (s.m.net.built = none → s.m.bankEmpty (!s.m.net.bank) = true → Ends .routeBuilt s fun t =>
        let r := s.m.net.build (!s.m.net.bank)
        let direct := acyclic (r.graph ++ s.m.net.graph)
        t.m.net.routes = r.routes ∧ t.m.net.turns = r.turns ∧ t.m.net.graphNext = r.graph ∧ t.m.net.built = some direct ∧
          told direct (!direct && s.m.bankEmpty s.m.net.bank) t ∧ t.m.net.bank = s.m.net.bank ∧
          Only (fun a b => { a with net := b.net }) s t) ∧
      (s.m.net.built = some false → s.m.net.toldDrained = false → s.m.bankEmpty s.m.net.bank = true → Ends .routeBuilt s fun t =>
        told false true t ∧ t.m.net.routes = s.m.net.routes ∧ t.m.net.bank = s.m.net.bank ∧ Only (fun a b => { a with net := b.net }) s t) ∧
      ∀ (drained : Bool) (r : RouteReport), r.from_ ≠ s.m.net.own → s.m.net.built = none → Ends (.routeSwitch ⟨drained, [r]⟩) s fun t =>
        t.m.net = { s.m.net with reports := Sparse.put r.from_.toNat r s.m.net.reports } ∧ Only (fun a b => { a with net := b.net }) s t) ∧
    (∀ (o : SwitchOrder) direct, s.m.net.built = some direct →
      let heard := s.m.hearReports o.reports
      let may := (o.drained = false → direct = true) ∧ (o.drained = true → s.m.bankEmpty s.m.net.bank = true) ∧
        heard.maySwitch o.drained = true
      (may → Ends (.routeSwitch o) s fun t =>
        t.m.net.bank = !s.m.net.bank ∧ t.m.net.rebuilding = false ∧ t.m.net.built = none ∧ t.m.net.graph = s.m.net.graphNext ∧
          t.m.net.generation = s.m.net.generation + 1 ∧ t.m.net.routes = s.m.net.routes ∧ t.m.links = s.m.links ∧ t.m.ctxs = s.m.ctxs) ∧
      (¬may → exec (.routeSwitch o) s = .next { s with m := heard })) ∧
    (s.m.net.rebuilding = true → Ends .routeRebuildTimeout s fun t =>
      t.m.net = { s.m.net with timedOut := true } ∧ Only (fun a b => { a with net := b.net }) s t)

/-- R265 to R267, R269, R271, R272, R330: the plan, a rank map, a fold's binding, the acceptance of its deviation and the isolation of a
bundle take effect when their object is written, and not with a value the rule refuses; a slot that waits too long for its fold fails. -/
def Obligations.PlanAndFoldsTakeEffect : Prop :=
  ∀ (s : State) (ch : Channel) (f : FoldSlot) (c : CtxId) (b : BundleId) (data : Bytes),
    let i := 0x2501 + f.val
    let legal := regionOk (coordOf (s.m.num 0x2500 2)) (coordOf (s.m.num 0x2500 3))
    (legal = true → Writes (.planCommit ch one) s ch 0x2500 5 one fun t =>
      t.m.net.own = coordOf (s.m.num 0x2500 1) ∧ t.m.net.lo = coordOf (s.m.num 0x2500 2) ∧ t.m.net.hi = coordOf (s.m.num 0x2500 3) ∧
        t.m.net.rebuilding = true ∧ (t.m.net.bundles[b]).far = coordOf (s.m.num (0x2640 + b.val) 6) ∧ t.m.ctxs = s.m.ctxs ∧ SameMemory s t) ∧
    (legal = false → Refuses (.planCommit ch one) s ch 0x2500 5 one abRange) ∧
    (let map := (s.m.obj i 5).toBytes.take (8 * s.m.num i 4)
      let old := s.m.net.folds[f]
      let later := old.committed = false ∨ seqBefore (2 ^ 31 - 1) old.generation (BitVec.ofNat 32 (leNat data)) = true
      (later → Writes (.rankMapCommit ch f data) s ch i 6 data fun t =>
        (t.m.net.folds[f]).rankMap = map ∧ (t.m.net.folds[f]).generation = BitVec.ofNat 32 (leNat data) ∧
          (t.m.net.folds[f]).homes = (if old.homeDue then homesOf map else old.homes) ∧
          (t.m.net.folds[f]).committed = true ∧ (∀ g, g ≠ f → t.m.net.folds[g] = s.m.net.folds[g]) ∧ t.m.links = s.m.links) ∧
      (¬later → Refuses (.rankMapCommit ch f data) s ch i 6 data abRange)) ∧
    (leNat data < 4 → (∀ d, d ≠ c → s.m.num 0x2510 (d.val + 1) ≠ leNat data) →
       Writes (.foldBinding ch c data) s ch 0x2510 (c.val + 1) data fun t =>
      (t.m.foldOf c).map Fin.val = some (leNat data) ∧ (∀ d, d ≠ c → t.m.foldOf d = s.m.foldOf d)) ∧
    (leNat data = 0xFF → Writes (.foldBinding ch c data) s ch 0x2510 (c.val + 1) data fun t =>
      t.m.foldOf c = none ∧ (∀ d, d ≠ c → t.m.foldOf d = s.m.foldOf d)) ∧
    ((leNat data < 4 ∧ ∃ d, d ≠ c ∧ s.m.num 0x2510 (d.val + 1) = leNat data) ∨ (4 ≤ leNat data ∧ leNat data ≠ 0xFF) →
      Refuses (.foldBinding ch c data) s ch 0x2510 (c.val + 1) data abRange) ∧
    ((s.m.net.folds[f]).st = .deviated → leNat data = (s.m.net.folds[f]).deviation.toNat →
       Writes (.foldAccept ch f data) s ch i 0x0A data fun t =>
      t.m.net.folds[f] = { s.m.net.folds[f] with st := .accepted } ∧ ∀ g, g ≠ f → t.m.net.folds[g] = s.m.net.folds[g]) ∧
    (leNat data ≠ (s.m.net.folds[f]).deviation.toNat → Refuses (.foldAccept ch f data) s ch i 0x0A data abRange) ∧
    (s.m.unplanned c = false → s.m.foldFlows c = false →
      let fails := fun (e : Eng) => Ends (.foldWaitTimeout c) s fun t =>
        HeadTaken s t c e ∧ Faulting t c .timeout (objDetail 0x2500 0x0C) ∧ OtherCtxs c s t ∧ SameMemory s t
      (∀ q, s.m.startable c .move = some q → (parseMove q.bytes).fabric = true → fails .move) ∧
      (∀ q, s.m.startable c .move = none → s.m.startable c .shuttle = some q → fails .shuttle)) ∧
    ((s.m.net.bundles[b]).role ≠ 0 → Writes (.isolate ch b [1]) s ch (0x2640 + b.val) 0x0A [1] fun t =>
      t.m.isolated b = true ∧ (t.m.net.bundles[b]).st = .down ∧ t.m.ctxs = s.m.ctxs ∧ SameMemory s t) ∧
    Writes (.isolate ch b [0]) s ch (0x2640 + b.val) 0x0A [0] fun t => t.m.isolated b = false ∧ t.m.ctxs = s.m.ctxs ∧ SameMemory s t

/-! ### The host port -/

namespace Sys2Proof.Claims

/-- Nothing but one occurrence of an event has changed the state: its counters. -/
def Counted (s t : State) (src isl : Nat) (c : Option CtxId := none) : Prop := t = { s with m := s.m.cnt src isl c }

end Sys2Proof.Claims

/-- R274 to R277, R279, R280: the port tries the requested mode, comes up in the mode it tries, steps down to 400G and starts again, and
goes back to trying when its link is lost, which leaves every context and QP as it was; it obeys pause frames on its two priorities only,
and sends what waited once its class is not paused any more. A request for one of its own addresses is answered and changes nothing else;
a frame that it does not serve, or that is longer than host_mtu, changes only the counter of its kind; an unsupported operation on an open
QP is NAKed and puts the QP in ERROR. -/
def Obligations.HostPortFollowsItsLinkAndAnswers : Prop :=
  (∀ (s : State) (ch : Channel) (data : Bytes),
    let host := fun (h : HostPort) (t : State) => t.m.host = h ∧ Only (fun a b => { a with host := b.host }) s t
    (leNat data ≤ 3 → Writes (.hostModeRequest ch data) s ch 0x2700 1 data fun t =>
      t.m.num 0x2700 1 = leNat data ∧
        t.m.host = (if s.m.reachable [101] then ⟨if leNat data = 3 then 3 else 4, leNat data, 0, []⟩ else s.m.host) ∧
        t.m.ctxs = s.m.ctxs ∧ SameMemory s t) ∧
    (3 < leNat data → Refuses (.hostModeRequest ch data) s ch 0x2700 1 data abRange) ∧
    (s.m.hostTrying = true → Ends .hostLinkUp s (host { s.m.host with mode := s.m.host.trying })) ∧
    (s.m.hostTrying = true → s.m.num 0x2700 3 ≠ 0 →
      (s.m.host.trying < 2 → Ends .hostLinkUpTimeout s fun t =>
        t.m.host = { s.m.host with trying := s.m.host.trying + 1 } ∧ t.m.counters = (s.m.cnt 0x6000 101).counters ∧
          Only (fun a b => { a with host := b.host, counters := b.counters }) s t) ∧
      (2 ≤ s.m.host.trying → Ends .hostLinkUpTimeout s (host { s.m.host with trying := s.m.num 0x2700 1 }))) ∧
    (s.m.hostUp = true → Ends .hostLinkDown s (host ⟨4, s.m.host.mode, 0, []⟩)) ∧
    (∀ prio x, s.m.hostUp = true → prio < 8 →
      (prio = s.m.num 0x2700 0x0A ∨ prio = s.m.num 0x2700 0x0B → Ends (.pfcFrame prio x) s fun t =>
        t.m.host.paused.getLsbD prio = x ∧ (∀ i < 8, i ≠ prio → t.m.host.paused.getLsbD i = s.m.host.paused.getLsbD i) ∧
          t.m.host.waiting = s.m.host.waiting.filter t.m.holds ∧
          t.m.out = ((s.m.host.waiting.filter fun o => !t.m.holds o).map t.m.wire).reverse ++ s.m.out ∧
          t.m.host.mode = s.m.host.mode ∧ Only (fun a b => { a with host := b.host, out := b.out }) s t) ∧
      (prio ≠ s.m.num 0x2700 0x0A → prio ≠ s.m.num 0x2700 0x0B → exec (.pfcFrame prio x) s = .next s))) ∧
  ∀ s : State, s.m.hostUp = true →
    let tells := fun (o : Out) (t : State) => Sent o s t ∧ Only (fun a b => { a with out := b.out }) s t
    let fits := fun (v6 : Bool) (b : Bytes) => (if v6 then 40 else 20) + 8 + b.length ≤ s.m.num 0x2700 9
    (∀ (ip : BitVec 32) (mac : BitVec 48),
      (ip ≠ 0 → s.m.num 0x2700 7 = ip.toNat → Ends (.arpRequest ip mac) s (tells (.arpReply mac ip))) ∧
      (s.m.num 0x2700 7 ≠ ip.toNat → Ends (.arpRequest ip mac) s fun t => Counted s t 0x6002 101)) ∧
    (∀ (ip : Bytes) (mac : BitVec 48),
      (s.m.ownV6 ip = true → Ends (.neighbourSolicitation ip mac) s (tells (.neighbourAdvert mac ip))) ∧
      (s.m.ownV6 ip = false → Ends (.neighbourSolicitation ip mac) s fun t => Counted s t 0x6002 101)) ∧
    (∀ (ip b : Bytes),
      (fits true b → s.m.ownV6 ip = true → Ends (.echoRequest true ip b) s (tells (.echoReply true b))) ∧
      (fits false b → leNat ip ≠ 0 → ip.reverse = natLe 4 (s.m.num 0x2700 7) →
        Ends (.echoRequest false ip b) s (tells (.echoReply false b))) ∧
      (fits false b → ip.reverse ≠ natLe 4 (s.m.num 0x2700 7) → Ends (.echoRequest false ip b) s fun t => Counted s t 0x6002 101) ∧
      (∀ v6, ¬fits v6 b → Ends (.echoRequest v6 ip b) s fun t => Counted s t 0x6001 101)) ∧
    (∀ row ∈ [(FrameFault.notServed, 0x6002), (.extraTags, 0x6002), (.oversize, 0x6001)],
      Ends (.otherFrame row.1) s fun t => Counted s t row.2 101) ∧
    (∀ n : BitVec 24, qpOfNumber n.toNat = none → Ends (.otherFrame (.unknownQp n)) s fun t => Counted s t 0x6007 101) ∧
    (∀ (c : CtxId) (q : QpNo) (k : Unsupported) (ce : Bool),
      (k = .otherTransport → Ends (.unsupportedOperation c ⟨q, ce⟩ k) s fun t => Counted s t 0x6007 101) ∧
      (k ≠ .otherTransport → QpOpen s c q 0 0 → Ends (.unsupportedOperation c ⟨q, false⟩ k) s fun t =>
        Sent (.rcNak c q .invalidRequest) s t ∧ (t.m.ctxs[c]).qps[q].st = .error ∧ (t.m.ctxs[c]).qps[q].outstanding = []))

/-- R85, R276, R278, R281, R286 to R289: a host READ or WRITE that a memory window allows reads or writes exactly its bytes and is
answered, and one without a valid key is NAKed and changes no memory; answers end the request they answer; a request that is not answered
goes again until its limit, and then its QP is in ERROR; a packet marked CE is answered with a CNP; a CNP halves the QP's rate and an
interval without one raises it. A message longer than host_mtu, or for a QP that is not in RTS, is dropped and counted. -/
def Obligations.RdmaServesItsQueuePairs : Prop :=
  ∀ (s : State) (c : CtxId) (q : QpNo),
    let x := s.m.ctxs[c]
    let p := x.qps[q]
    let got := s.m.wake [101]
    (∀ (key : BitVec 32) (off : Nat) (b : Bytes) (ce : Bool), s.m.hostUp = true →
      (s.m.oversize c q b.length 16 ≠ 0 → Ends (.rdmaWrite c q key off b ce) s fun t =>
        t = { s with m := s.m.cnt 0x6001 101 none (s.m.oversize c q b.length 16) }) ∧
      (s.m.oversize c q b.length 16 = 0 → p.st = .reset → Ends (.rdmaWrite c q key off b ce) s fun t =>
        Counted s t 0x6007 101 (some c)) ∧
      (s.m.oversize c q b.length 16 = 0 → p.st = .error → Ends (.rdmaWrite c q key off b ce) s fun t =>
        Counted s t 0x6008 101 (some c))) ∧
    (∀ (key : BitVec 32) (off : Nat) (b : Bytes) (k : Mw), QpOpen s c q b.length 16 → isData q = true → s.m.works = true →
      s.m.mwOf c key = some k → b ≠ [] → off + b.length ≤ k.length → bit k.access.toNat 1 = true →
      s.m.reachable (mwPath k off b.length) = true →
      (k.space ≠ 2 → s.m.mem.badWords = [] → Ends (.rdmaWrite c q key off b false) s fun t =>
        SpadPut s t (k.base + off) b ∧ Sent (.rcAck c q) s t ∧ OtherCtxs c s t) ∧
      (k.space = 2 → s.m.mem.badUnits = [] → s.m.mustHold (k.base + off) b.length = false → Ends (.rdmaWrite c q key off b false) s fun t =>
        DramPut s t (k.base + off) b ∧ Sent (.rcAck c q) s t ∧ OtherCtxs c s t)) ∧
    (∀ (key : BitVec 32) (off n : Nat) (k : Mw), QpOpen s c q 0 16 → isData q = true → s.m.works = true →
      s.m.mwOf c key = some k → mwAllows (some k) 0 off n = true → s.m.readsHeld c q < s.m.num (qpIdx c q) 0x0D →
      s.m.reachable (mwPath k off n) = true →
      (k.space ≠ 2 → s.m.spadBad (k.base + off) n = none → Ends (.rdmaRead c q key off n false) s fun t =>
        Sent (.rdmaReadResp c q (s.m.spadRead (k.base + off) n)) s t ∧ OtherCtxs c s t ∧ SameMemory s t) ∧
      (k.space = 2 → s.m.dramBad (k.base + off) n = none → Ends (.rdmaRead c q key off n false) s fun t =>
        Sent (.rdmaReadResp c q (s.m.dramRead (k.base + off) n)) s t ∧ OtherCtxs c s t ∧ SameMemory s t)) ∧
    (∀ (key : BitVec 32) (off n : Nat) (b : Bytes), isData q = true → s.m.mwOf c key = none → s.m.mv.jobs = [] →
      let refused := fun (t : State) => Sent (.rcNak c q .remoteAccess) s t ∧ (t.m.ctxs[c]).qps[q].st = .error ∧
        t.m.counters = (got.cnt 0x600E 101 (some c)).counters ∧ OtherCtxs c s t ∧ SameMemory s t
      (QpOpen s c q b.length 16 → Ends (.rdmaWrite c q key off b false) s refused) ∧
      (QpOpen s c q 0 16 → Ends (.rdmaRead c q key off n false) s refused)) ∧
    (∀ uid piece a key b rest j g, QpOpen s c q b.length 4 → s.m.works = true →
      takeFirst HostReq.isRead p.outstanding = some (.read uid piece a key b.length, rest) → s.m.moveJob c uid = some j →
      let v := parseMove j.slot.bytes
      s.m.reachable (j.path v (v.piece piece)) = true → v.piece piece = [g] → g.len = b.length → v.ends.2.isDram = false → v.acc = false →
      s.m.spadPartBad (j.dstRow v g.row + g.off) b.length = none → Ends (.rdmaReadResponse c q b false) s fun t =>
        SpadPut s t (j.dstRow v g.row + g.off) b ∧ (t.m.ctxs[c]).qps[q].outstanding = rest ∧
          (∃ k, t.m.moveJob c uid = some k ∧ k.outstanding = j.outstanding - 1) ∧ OtherCtxs c s t) ∧
    (QpOpen s c q 0 4 →
      (∀ r rest, takeFirst (fun r => !HostReq.isRead r) p.outstanding = some (r, rest) → Ends (.rcAck c ⟨q, false⟩) s fun t =>
        (t.m.ctxs[c]).qps[q] = { p with outstanding := rest, retries := 0, rnrRetries := 0 } ∧
          (∀ n, r = .record n → (t.m.ctxs[c]).unacked = x.unacked.filter fun k => !decide (k.seq = n)) ∧ OtherCtxs c s t ∧ SameMemory s t) ∧
      (takeFirst (fun r => !HostReq.isRead r) p.outstanding = none →
        (∀ at_ ∈ p.cnpTx, at_ + s.m.num 0x2700 0x0E * 1000 ≤ s.m.now) → Ends (.rcAck c ⟨q, true⟩) s fun t =>
          Sent (.cnp c q) s t ∧ (t.m.ctxs[c]).qps[q] = { p with cnpTx := some s.m.now } ∧
            t.m.counters = (got.cnt 0x6005 101 (some c)).counters ∧ OtherCtxs c s t ∧ SameMemory s t) ∧
      (p.outstanding ≠ [] →
        let limit := s.m.num (qpIdx c q) 0x0A
        (limit = 7 ∨ p.rnrRetries < limit → Ends (.rcNak c ⟨q, false⟩ .rnr) s fun t =>
          (t.m.ctxs[c]).qps[q] = { p with rnrRetries := p.rnrRetries + 1 } ∧ OtherCtxs c s t ∧ SameMemory s t) ∧
        (limit ≠ 7 → limit ≤ p.rnrRetries → Ends (.rcNak c ⟨q, false⟩ .rnr) s fun t =>
          (t.m.ctxs[c]).qps[q].st = .error ∧ (t.m.ctxs[c]).qps[q].outstanding = [])) ∧
      ∀ kind, kind ≠ .rnr → Ends (.rcNak c ⟨q, false⟩ kind) s fun t =>
        (t.m.ctxs[c]).qps[q].st = .error ∧ (t.m.ctxs[c]).qps[q].outstanding = [] ∧ t.m.out = s.m.out) ∧
    (p.outstanding ≠ [] → s.m.hostUp = true → p.st = .rts →
      (p.retries < s.m.num (qpIdx c q) 9 → Ends (.rcAckTimeout c q) s fun t =>
        (t.m.ctxs[c]).qps[q] = { p with retries := p.retries + 1 } ∧ OtherCtxs c s t ∧ SameMemory s t) ∧
      (s.m.num (qpIdx c q) 9 ≤ p.retries → Ends (.rcAckTimeout c q) s fun t =>
        (t.m.ctxs[c]).qps[q].st = .error ∧ (t.m.ctxs[c]).qps[q].outstanding = [])) ∧
    (s.m.hostUp = false → exec (.rcAckTimeout c q) s = .next s) ∧
    (QpOpen s c q 0 16 → s.m.cnpDue p.cnpRx = true → Ends (.cnp c q) s fun t =>
      (t.m.ctxs[c]).qps[q] = { p with rate := max 1000 (p.rate / 2), cnpRx := some s.m.now, rateSince := s.m.now } ∧
        t.m.counters = (got.cnt 0x6006 101 (some c)).counters ∧ OtherCtxs c s t ∧ SameMemory s t) ∧
    (s.m.hostUp = true → p.st = .rts →
      let r := portRate s.m.host.mode
      (p.rateSince + s.m.num 0x2700 0x0F * 1000 ≤ s.m.now → Ends (.rateRecover c q) s fun t =>
        (t.m.ctxs[c]).qps[q] = { p with rate := max p.rate (min r (p.rate + r / 20)), rateSince := s.m.now } ∧ OtherCtxs c s t ∧
          Only (fun a b => { a with ctxs := b.ctxs }) s t) ∧
      (s.m.now < p.rateSince + s.m.num 0x2700 0x0F * 1000 → exec (.rateRecover c q) s = .next s))

/-- R281, R287: a QP with a complete configuration goes from RESET to RTS with the PSNs configured, and a reset takes it back; a memory
window gets a key that names its context and number, with the range and access configured, and loses it when it is destroyed. -/
def Obligations.QueuePairsAndWindowsAreConfigured : Prop :=
  ∀ (s : State) (ch : Channel) (c : CtxId) (q : QpNo) (w : MwNo),
    let x := s.m.ctxs[c]
    let i := qpIdx c q
    let k := mwIdx c w
    let fits := s.m.mwFits c (s.m.num k 1) (s.m.num k 2) (s.m.num k 3)
    (x.qps[q].st = .reset → x.st ≠ .disabled → s.m.qpComplete c q = true → Writes (.qpConnect ch c q one) s ch i 0x0E one fun t =>
      (t.m.ctxs[c]).qps[q].st = .rts ∧ (t.m.ctxs[c]).qps[q].sendPsn = s.m.num i 5 % 2 ^ 24 ∧
        (t.m.ctxs[c]).qps[q].expPsn = s.m.num i 6 % 2 ^ 24 ∧ (t.m.ctxs[c]).qps[q].outstanding = [] ∧ OtherCtxs c s t ∧ SameMemory s t) ∧
    (x.qps[q].st ≠ .reset ∨ x.st = .disabled ∨ s.m.qpComplete c q = false → Refuses (.qpConnect ch c q one) s ch i 0x0E one abState) ∧
    Writes (.qpReset ch c q one) s ch i 0x0F one (fun t => (t.m.ctxs[c]).qps[q].st = .reset ∧ (t.m.ctxs[c]).qps[q].outstanding = [] ∧
      ∀ j, j ≠ q → ((t.m.ctxs[c]).qps[j]).st = (x.qps[j]).st) ∧
    (fits = true → Writes (.mwCreate ch c w one) s ch k 5 one fun t =>
      let y := (t.m.ctxs[c]).mws[w]
      (∃ key, y.key = some key ∧ bits key.toNat 31 30 = c.val ∧ bits key.toNat 29 26 = w.val ∧ key.setWidth 26 ≠ (x.mws[w]).lastTag) ∧
        y.space = s.m.num k 1 ∧ y.base = s.m.num k 2 ∧ y.length = s.m.num k 3 ∧ y.access = BitVec.ofNat 8 (s.m.num k 4) ∧
        (∀ v, v ≠ w → (t.m.ctxs[c]).mws[v] = x.mws[v]) ∧ OtherCtxs c s t ∧ SameMemory s t) ∧
    (fits = false → Refuses (.mwCreate ch c w one) s ch k 5 one abRange) ∧
    Writes (.mwDestroy ch c w one) s ch k 7 one (fun t =>
      (t.m.ctxs[c]).mws[w] = { x.mws[w] with key := none } ∧ (∀ v, v ≠ w → (t.m.ctxs[c]).mws[v] = x.mws[v]) ∧ OtherCtxs c s t ∧
        SameMemory s t)

/-! ### Buffer pools and DRAM upkeep (R83, R85, R86, R107 to R113) -/

/-- R110 to R113: the request at the head of a pool's queue is granted not before it fits; a collective's is then granted whole. One that
waits too long fails its operation. Each use of a buffer changes its count alone; at count 0 it joins the tail of the free list; a use by
another than its owner, or beyond 65,535, is misuse: it is told, the buffer is quarantined, and the requester's operation fails, or its
context where it has none. -/
def Obligations.PoolsGrantInOrderAndCountUses : Prop :=
  ∀ (s : State) (p : PoolId),
    let x := s.m.pools[p]
    let pool := fun (y : Pool) (t : State) => t.m.pools[p] = y ∧ ∀ q : PoolId, q ≠ p → t.m.pools[q] = s.m.pools[q]
    let pools := fun (t : State) => Only (fun a b => { a with pools := b.pools }) s t
    (∀ (q : BpmReq) (rest : List BpmReq), x.waiting = q :: rest →
      (s.m.bpmFits p q.who q.n = false ∨ s.m.mayGrant q = false → exec (.bpmGrant p) s = .next s) ∧
      (∀ key, s.m.bpmFits p q.who q.n = true → q.why = .admission key → Ends (.bpmGrant p) s fun t =>
        pool (Pool.mark { x with waiting := rest, reserved := Sparse.modify 0 q.who.val (· + q.n) x.reserved }) t ∧
          t.m.coll key = (s.m.coll key).map (fun k => { k with reserved := q.n }) ∧
          Only (fun a b => { a with pools := b.pools, shut := b.shut }) s t) ∧
      (∀ c, q.why = .inbound c → Ends (.bpmQuotaWaitTimeout p) s fun t =>
        pool { x with waiting := rest } t ∧ t.m.counters = (s.m.cnt 0x9003 127 (some c)).counters ∧
          Only (fun a b => { a with pools := b.pools, counters := b.counters, net := b.net, links := b.links }) s t) ∧
      (∀ c uid j, q.why = .get c uid ∨ q.why = .host c uid → s.m.moveJob c uid = some j → (s.m.ctxs[c]).st = .enabled →
        Ends (.bpmQuotaWaitTimeout p) s fun t =>
          Faulting t c .quotaWaitTimeout p.val ∧ (∀ k ∈ t.m.mv.jobs, ¬(k.c = c ∧ k.slot.uid = uid)) ∧ OtherCtxs c s t) ∧
      (∀ key k, q.why = .admission key → s.m.coll key = some k → (s.m.ctxs[key.ctx]).st = .enabled → Ends (.bpmQuotaWaitTimeout p) s fun t =>
        CollFails s t k Status.quotaWaitTimeout.code p.val) ∧
      (∀ c, q.why = .drover c → (s.m.ctxs[c]).st = .enabled → Ends (.bpmQuotaWaitTimeout p) s fun t =>
        Faulting t c .quotaWaitTimeout p.val ∧ pool { x with waiting := rest } t ∧ OtherCtxs c s t)) ∧
    (∀ (r : Requester) (i n : Nat) (k : Buf) (b : BufferRef), s.m.bpmLocate b = .ok (p, i) → Sparse.find i x.alloc = some k →
      (k.owner = r → k.refs + n ≤ 65535 → Ends (.bpmIncrement r b n) s fun t =>
        pool { x with alloc := Sparse.put i { k with refs := k.refs + n } x.alloc } t ∧ pools t) ∧
      (k.owner = r → 1 < k.refs → Ends (.bpmDecrement r b) s fun t =>
        pool { x with alloc := Sparse.put i { k with refs := k.refs - 1 } x.alloc } t ∧ pools t) ∧
      (k.owner = r → k.refs ≤ 1 → x.quarantined.contains i = false → Ends (.bpmDecrement r b) s fun t =>
        pool { x with alloc := Sparse.erase i x.alloc, freed := x.freed ++ [i] } t ∧ pools t) ∧
      (k.owner ≠ r ∨ 65535 < k.refs + n → x.quarantined.contains i = false → s.m.currentOp r = none → i < 2 ^ 20 →
        Ends (.bpmIncrement r b n) s fun t =>
          pool { x with quarantined := i :: x.quarantined, freed := x.freed.filter (· ≠ i) } t ∧ Told t 0xFF02 (handleOf p i) ∧
            SameMemory s t ∧
            ∀ c : CtxId, r.val = c.val → (s.m.ctxs[c]).st = .enabled → Faulting t c .uncorrectable p.val ∧ OtherCtxs c s t) ∧
      (∀ j, k.owner ≠ r ∨ 65535 < k.refs + n → s.m.currentOp r = some (.move j) → (s.m.ctxs[j.c]).st = .enabled → i < 2 ^ 20 →
        Ends (.bpmIncrement r b n) s fun t =>
          (t.m.pools[p]).quarantined.contains i = true ∧ Told t 0xFF02 (handleOf p i) ∧ Faulting t j.c .uncorrectable p.val ∧
            OtherCtxs j.c s t ∧ ∀ l ∈ t.m.mv.jobs, ¬(l.c = j.c ∧ l.slot.uid = j.slot.uid)))

/-- R83, R85, R86: a scrub step looks at one line of its channel and goes on to the next; the errors it corrects are counted and written
back, an uncorrectable line marks its four units and is not rewritten; a calibration changes nothing; DRAM enters service when all 24
channels trained alike, at the lower of their rate and the limit, and not when one of them did not. -/
def Obligations.DramIsTrainedAndScrubbed : Prop :=
  ∀ (s : State) (chan : DramChan),
    let line := s.m.mem.patrol[chan]
    let units := fun (u : Nat) => (line * 24 + chan.val) * 4 ≤ u ∧ u < (line * 24 + chan.val) * 4 + 4
    let weak := s.m.mem.weakUnits.filter fun u => decide (units u.1)
    let mended := s.m.mem.weakUnits.filter fun u => !decide (units u.1)
    let next := Vec.upd s.m.mem.patrol chan fun _ => (line + 1) % s.m.linesPerChan
    (s.m.mem.dramState = 2 → s.m.linesPerChan ≠ 0 → s.m.reachable [island (102 + chan.val)] = true →
      (weak = [] → Ends (.patrolScrub chan .clean) s fun t =>
        t.m.mem = { s.m.mem with patrol := next } ∧ Only (fun a b => { a with mem := b.mem }) s t) ∧
      (∀ (r : ScrubResult) (n : Nat), (r = .clean ∧ n = weak.length) ∨ ((∃ dev, r = .corrected dev) ∧ n = 1) →
        Ends (.patrolScrub chan r) s fun t =>
          t.m.mem.patrol = next ∧ t.m.mem.weakUnits = mended ∧
            (t.m.mem.chans[chan]).ceCount = (s.m.mem.chans[chan]).ceCount + BitVec.ofNat 32 n ∧
            (∀ k : DramChan, k ≠ chan → t.m.mem.chans[k] = s.m.mem.chans[k]) ∧ t.m.mem.badUnits = s.m.mem.badUnits ∧
            SameMemory s t ∧ Only (fun a b => { a with mem := b.mem, log := b.log, counters := b.counters, mgmt := b.mgmt }) s t) ∧
      Ends (.patrolScrub chan .uncorrectable) s fun t =>
        t.m.mem.patrol = next ∧
          (∀ u, u ∈ t.m.mem.badUnits ↔ u ∈ s.m.mem.badUnits ∨ units u) ∧
          SameMemory s t ∧ t.m.mem.chans = s.m.mem.chans ∧
          Only (fun a b => { a with mem := b.mem, log := b.log, counters := b.counters, freeCtr := b.freeCtr }) s t) ∧
    exec (.zqCalibration chan) s = .next s ∧
    (∀ size rate, s.m.mem.dramState = 1 → size ∈ [64, 128, 256] → rate ∈ [8800, 12800] →
      Ends (.dramTrained (List.replicate 24 ⟨size, rate, .trained⟩)) s fun t =>
        t.m.mem.dramState = 2 ∧ t.m.mem.rateMts = min rate (s.m.num 0x2980 4) ∧
          (∀ k : DramChan, (t.m.mem.chans[k]).st = 2 ∧ (t.m.mem.chans[k]).sizeGib = size) ∧
          (∀ c, s.m.num (ctxIdx c 0) 2 ≠ 1 ∨ (s.m.ctxs[c]).st ≠ .disabled → t.m.ctxs[c] = s.m.ctxs[c]) ∧ t.m.dict = s.m.dict) ∧
    (∀ reports : List DimmReport, s.m.mem.dramState = 1 → reports.length = 24 → (∃ r ∈ reports, r.result ≠ .trained) →
      Ends (.dramTrained reports) s fun t => t.m.mem.dramState = 0 ∧ Only (fun a b => { a with mem := b.mem }) s t)

/-! ### Management: the CAN node, the dictionary's requests, the store (R290, R342 to R349, R355 to R357, R365) -/

/-- R345, R355 to R357, R365: what reaches the CAN node has the effect of its row. An NMT command moves the node's state alone; a
management reset leaves contexts, links and memory as they are; Reset Communication puts back the stored communication objects alone;
heartbeat, TPDO, EMCY and TIME send or log one message. -/
def Obligations.CanNodeFollowsItsCommands : Prop :=
  ∀ s : State,
    let quiet := fun (t : State) => Only (fun a b => { a with mgmt := b.mgmt, log := b.log, counters := b.counters }) s t
    let restarts := fun (cause : Nat) (t : State) =>
      t.m.pwr = { s.m.pwr with boot := .rom, mgmtResetting := true, resetDue := none, lastCause := cause } ∧
        t.m.mgmt.nmt = .initialisation ∧ t.m.mgmt.usdo = .idle ∧ t.m.mgmt.emcyQ = [] ∧ t.m.log.queue = [] ∧ t.m.mgmt.store = none ∧
        t.m.mgmt.copies = s.m.mgmt.copies ∧
        Only (fun a b => { a with mgmt := b.mgmt, log := b.log, fw := b.fw, pwr := b.pwr }) s t
    (s.m.mgmtUp = true →
      Ends .watchdogRestart s (restarts 6) ∧
      (∀ n, Ends (.canRxOverrun n) s fun t => Told t 0x8110 n ∧ quiet t) ∧
      (Ends .canBusOffRecovered s fun t =>
        Told t 0x8140 (s.m.mgmt.busOffCount + 1) ∧ t.m.mgmt.busOffCount = s.m.mgmt.busOffCount + 1 ∧ quiet t) ∧
      ∀ b, Ends (.canErrorPassive b) s fun t => t.m.mgmt.canPassive = b ∧ quiet t) ∧
    (s.m.canNode = true →
      (∀ row ∈ [(Instr.nmtStart, Nmt.operational), (.nmtStop, .stopped), (.nmtEnterPreOperational, .preOperational)],
        Ends row.1 s fun t => t.m.mgmt = { s.m.mgmt with nmt := row.2 } ∧ Only (fun a b => { a with mgmt := b.mgmt }) s t) ∧
      Ends .nmtResetNode s (restarts 7) ∧
      (Ends .nmtResetCommunication s fun t =>
        t.m.mgmt.nmt = .preOperational ∧ t.m.dict = (s.m.reload fun k => decide (k < 0x2000 * 256)).dict ∧
          (∀ i k, 0x2000 ≤ i → k < 256 → Sparse.find (objKey i k) t.m.dict = Sparse.find (objKey i k) s.m.dict) ∧
          (∀ i k, s.m.mgmt.newest = none → i < 0x2000 → k < 256 → storedKey (objKey i k) = true →
             Sparse.find (objKey i k) t.m.dict = none) ∧
          (t.m.mgmt.nodeId ≠ 0 → Says s t .bootUp) ∧ (t.m.mgmt.nodeId = 0 → t.m.out = s.m.out) ∧
          Only (fun a b => { a with mgmt := b.mgmt, dict := b.dict, out := b.out }) s t) ∧
      (s.m.num 0x1017 0 ≠ 0 → Ends .heartbeat s fun t =>
        Says s t (.heartbeat s.m.mgmt.nmt.code) ∧ Only (fun a b => { a with out := b.out }) s t) ∧
      (s.m.num 0x1017 0 = 0 → exec .heartbeat s = .next s)) ∧
    (s.m.canServes = true →
      (∀ v, bit (s.m.num 0x1012 0) 31 = true → s.m.log.queue.length < 4096 → Ends (.time v) s fun t =>
        (∃ r : LogRec, t.m.log.queue = s.m.log.queue ++ [r] ∧ r.event = 0xFE02 ∧ r.ts = s.m.now ∧
          r.data = natLe 8 s.m.now ++ natLe 6 v.toNat) ∧ Only (fun a b => { a with log := b.log }) s t) ∧
      (∀ e rest, s.m.mgmt.emcyQ = e :: rest → s.m.mgmt.errOwed = false ∨ s.m.errorReg ≠ 0 → Ends .emcySend s fun t =>
        Says s t (.emcy e.code (BitVec.ofNat 8 s.m.errorReg) e.field) ∧ t.m.mgmt = { s.m.mgmt with emcyQ := rest } ∧
          Only (fun a b => { a with mgmt := b.mgmt, out := b.out }) s t)) ∧
    ∀ n : Fin 4, s.m.tpdoOn n = true →
      let b := s.m.tpdoData s.fuses n
      let goes := fun (t : State) => Says s t (.tpdo n b) ∧ t.m.mgmt.tpdoLast[n] = b ∧ t.m.mgmt.chans = s.m.mgmt.chans ∧
        Only (fun a b => { a with mgmt := b.mgmt, out := b.out }) s t
      (s.m.num (0x1800 + n.val) 5 ≠ 0 → Ends (.tpdoEventTimer n) s goes) ∧
      (s.m.num (0x1800 + n.val) 5 = 0 → exec (.tpdoEventTimer n) s = .next s) ∧
      (2 ≤ n.val → b ≠ s.m.mgmt.tpdoLast[n] → Ends (.tpdoValueChange n) s goes) ∧
      (n.val < 2 ∨ b = s.m.mgmt.tpdoLast[n] → exec (.tpdoValueChange n) s = .next s)

/-- R344, R347, R348: a write is refused with the code of the first check it fails, in the order of R347, or does what its object's
chapter says and is answered; a download waits for its last segment and is written then; a second transfer beside one is refused, and one
that stops coming is aborted; a read is answered with the object's bytes or the abort code. -/
def Obligations.RequestsAreCheckedInOrder : Prop :=
  ∀ (s : State) (ch : Channel) (i k : Nat) (data : Bytes),
    let write := Instr.registerWrite ch i k data
    (s.m.chanUp ch = true →
      (idxExists i = false → Ends write s (RefusedWith abNoObject ch i k s)) ∧
      (idxExists i = true → objRow? i k = none → Ends write s (RefusedWith abNoSub ch i k s)) ∧
      (∀ r, idxExists i = true → objRow? i k = some r →
        (s.m.mayWrite ch i k r = false → Ends write s (RefusedWith abAccess ch i k s)) ∧
        (s.m.mayWrite ch i k r = true → r.acc = .ro ∨ r.acc = .const → Ends write s (RefusedWith abReadOnly ch i k s)) ∧
        (s.m.mayWrite ch i k r = true → r.acc ≠ .ro → r.acc ≠ .const → r.ty.fits data.length = false →
          Ends write s (RefusedWith abLength ch i k s)) ∧
        (i ≠ 0x2F02 → s.m.checkWrite ch i k data = .ok r →
          (∀ e, boolGate r (writerOf i k) s.m ch (r.ty.value data) = .err e → Ends write s (RefusedWith e ch i k s)) ∧
          (∀ m, boolGate r (writerOf i k) s.m ch (r.ty.value data) = .ok m → Ends write s fun t =>
            Accepted ch i k t ∧ t.m.dict = m.dict ∧ t.m.ctxs = m.ctxs ∧ t.m.links = m.links ∧ t.fuses = s.fuses)))) ∧
    (s.m.chanUp ch = false → exec write s = .next s) ∧
    (s.m.chanUp .can = true →
      (∀ m b, s.m.usdoBusy = false → s.m.readWhole s.fuses .can i k = .ok (m, b) → Ends (.usdoRead i k) s fun t =>
        Says s t (.readOk .can i k b) ∧ Only (fun a b => { a with mgmt := b.mgmt, out := b.out }) s t) ∧
      (∀ e, s.m.usdoBusy = false → s.m.readWhole s.fuses .can i k = .error e → Ends (.usdoRead i k) s fun t =>
        t = { s with m := (s.m.cnt 0xF005 133).send (.readAbort .can i k (BitVec.ofNat 32 e)) }) ∧
      (isImage i k = false →
        (s.m.mgmt.usdo = .idle → s.m.owes Out.onCan = false →
          (Ends (.usdoWrite i k data false) s fun t =>
            t.m.mgmt = { s.m.mgmt with usdo := .writing i k data } ∧ Only (fun a b => { a with mgmt := b.mgmt }) s t) ∧
          Ends (.usdoWrite i k data true) s fun t => exec (.registerWrite .can i k data) s = .next t) ∧
        (∀ got, s.m.mgmt.usdo = .writing i k got →
          (Ends (.usdoWrite i k data false) s fun t =>
            t.m.mgmt = { s.m.mgmt with usdo := .writing i k (got ++ data) } ∧ Only (fun a b => { a with mgmt := b.mgmt }) s t) ∧
          Ends (.usdoWrite i k data true) s fun t =>
            exec (.registerWrite .can i k (got ++ data)) { s with m := s.m.modUsdo .idle } = .next t)) ∧
      (∀ j n got last, s.m.mgmt.usdo = .writing j n got → (j, n) ≠ (i, k) →
        Ends (.usdoWrite i k data last) s (RefusedWith abState .can i k s))) ∧
    (∀ j n got, s.m.mgmt.usdo = .writing j n got → s.m.mgmtUp = true → Ends .usdoSegmentTimeout s fun t =>
      t.m.mgmt = { s.m.mgmt with usdo := .idle } ∧ Says s t (wroteOut .can j n 0x05040000) ∧
        Only (fun a b => { a with mgmt := b.mgmt, counters := b.counters, out := b.out }) s t) ∧
    (Ends (.domainCopyExpiry ch) s fun t =>
      (t.m.mgmt.chans[chanNum ch]).copy = none ∧ (∀ d : Fin 5, d ≠ chanNum ch → t.m.mgmt.chans[d] = s.m.mgmt.chans[d]) ∧
        Only (fun a b => { a with mgmt := b.mgmt }) s t)

/-- R290, R349, R379: a request on a management QP is acknowledged and answered with its tag, index and sub-index, a malformed one with an
abort code; a ninth open one is refused; a store captures the stored objects at once, erases the copy not in force and is answered when it
is programmed; a restore voids both copies; a quote uses up its nonce and tells body and signature. -/
def Obligations.ManagementAnswersAndStores : Prop :=
  ∀ (s : State) (c : CtxId) (ch : Channel) (msg : Bytes),
    let h := mgmtHdr msg
    let m := (((s.m.wake [101]).ceMark c qMgmt false).psnRx c qMgmt msg.length).send (.rcAck c qMgmt)
    let answer := fun (e : Nat) (b : Bytes) => Out.mgmtResponse c (mgmtRsp h e b)
    let answered := fun (e : Nat) (b : Bytes) (t : State) =>
      if s.m.hostPaused 1 = true then t.m.out = s.m.out ∧ t.m.host.waiting = s.m.host.waiting ++ [.rcAck c qMgmt, answer e b]
      else t.m.out = s.m.wire (answer e b) :: s.m.wire (.rcAck c qMgmt) :: s.m.out
    (s.m.mgmtUp = true → QpOpen s c qMgmt msg.length 0 → s.m.owes (Out.onQp c) = false →
      (8 ≤ s.m.mgmtOpen c → h.op ≠ 2 → Ends (.mgmtRead c msg false) s fun t =>
        Sent (.rnrNak c qMgmt (s.m.num (qpIdx c qMgmt) 0x0B)) s t ∧
          Only (fun a b => { a with out := b.out, host := b.host, islands := b.islands }) s t) ∧
      (s.m.mgmtOpen c < 8 → h.ok msg = false → Ends (if h.op = 2 then .mgmtWrite c msg false else .mgmtRead c msg false) s fun t =>
        answered abIncompatible [] t ∧ OtherCtxs c s t ∧ SameMemory s t ∧ t.m.dict = s.m.dict) ∧
      (s.m.mgmtOpen c < 8 → h.ok msg = true → h.op = 1 →
        let got := if h.offset = 0 then m.readWhole s.fuses (.qp c) h.index h.sub else m.readCopy (.qp c) h.index h.sub h.offset
        (∀ m' b, got = .ok (m', b) → Ends (.mgmtRead c msg false) s fun t =>
          answered 0 (b.take 4080) t ∧ OtherCtxs c s t ∧ SameMemory s t ∧ t.m.dict = s.m.dict) ∧
        (∀ e, got = .error e → Ends (.mgmtRead c msg false) s fun t =>
          answered e [] t ∧ OtherCtxs c s t ∧ SameMemory s t ∧ t.m.dict = s.m.dict)) ∧
      (s.m.mgmtOpen c < 8 → h.ok msg = true → h.op = 2 → h.offset = 0 → h.index ≠ 0x2F02 → isImage h.index h.sub = false →
        (∀ e, m.checkWrite (.qp c) h.index h.sub (msg.drop 16) = .error e → Ends (.mgmtWrite c msg false) s fun t =>
          answered e [] t ∧ OtherCtxs c s t ∧ SameMemory s t ∧ t.m.dict = s.m.dict) ∧
        (∀ r m', m.checkWrite (.qp c) h.index h.sub (msg.drop 16) = .ok r →
          boolGate r (writerOf h.index h.sub) m (.qp c) (r.ty.value (msg.drop 16)) = .ok m' → Ends (.mgmtWrite c msg false) s fun t =>
            (m'.host.mode < 3 → m'.hostPaused 1 = false → t.m.out.head? = some (m'.wire (answer 0 []))) ∧
              t.m.dict = m'.dict ∧ t.m.links = m'.links))) ∧
    (s.m.mgmt.store = none → Reaches s ch 0x1010 1 (natLe 4 0x65766173) → Ends (.storeParameters ch (natLe 4 0x65766173)) s fun t =>
      t.m.mgmt.store = some ⟨wroteOut ch 0x1010 1 0, s.m.mgmt.older.val, s.m.captured⟩ ∧ (t.m.mgmt.copies[s.m.mgmt.older]).valid = false ∧
        t.m.mgmt.copies[s.m.mgmt.older + 1] = s.m.mgmt.copies[s.m.mgmt.older + 1] ∧ t.m.out = s.m.out ∧ t.m.dict = s.m.dict) ∧
    (s.m.mgmt.store ≠ none → Refuses (.storeParameters ch (natLe 4 0x65766173)) s ch 0x1010 1 (natLe 4 0x65766173) abState) ∧
    (∀ data, leNat data ≠ 0x65766173 → Refuses (.storeParameters ch data) s ch 0x1010 1 data abStore) ∧
    (∀ k, s.m.mgmt.store = some k → k.answer.qp = none ∨ s.m.host.mode < 3 → s.m.mgmtUp = true → Ends .storeComplete s fun t =>
      let i : Fin 2 := Fin.ofNat 2 k.copy
      t.m.mgmt.copies[i] = ⟨true, (s.m.mgmt.copies[i + 1]).count + 1, k.values⟩ ∧ t.m.mgmt.copies[i + 1] = s.m.mgmt.copies[i + 1] ∧
        t.m.mgmt.store = none ∧ Sent k.answer s t ∧ SameMemory s t ∧ t.m.dict = s.m.dict) ∧
    Writes (.restoreDefaultParameters ch (natLe 4 0x64616F6C)) s ch 0x1011 1 (natLe 4 0x64616F6C) (fun t =>
      (∀ i : Fin 2, (t.m.mgmt.copies[i]).valid = false) ∧ t.m.dict = s.m.dict ∧ SameMemory s t) ∧
    (∀ data, leNat data ≠ 0x64616F6C → Refuses (.restoreDefaultParameters ch data) s ch 0x1011 1 data abStore) ∧
    (∀ n r, s.m.chanUp ch = true → s.m.checkRead ch 0x2F03 4 = .ok r → (s.m.mgmt.chans[chanNum ch]).nonce = some n →
      let body := s.m.quoteBody s.fuses n
      Ends (.quote ch) s fun t =>
        Says s t (.readOk ch 0x2F03 4 (body ++ Config.mldsaSign body (ascii "VLS-QUOTE"))) ∧ (t.m.mgmt.chans[chanNum ch]).nonce = none ∧
          Only (fun a b => { a with mgmt := b.mgmt, out := b.out }) s t)

/-! ### Counters, sensors, the log, Goose, fences, Bellwether (R219, R322, R323, R335 to R339, R353, R354, R358 to R365) -/

/-- R359 to R362: the four network commands act on every counter at once: FREEZE samples, CLEAR zeroes, RUN and STOP change no value; a
counter counts what its source and filter match, up to all ones with its overflow bit, and neither while STOPPED nor while the event's
island does not run (R17); a new source, filter or owner starts that counter afresh, and a filter that R359 or R362 rules out is refused.
-/
def Obligations.CountersFollowTheirNetwork : Prop :=
  ∀ (s : State) (ch : Channel), s.m.log.queue.length < 4096 →
    let logged := fun (t : State) =>
      Only (fun a b => { a with netState := b.netState, counters := b.counters, log := b.log, out := b.out }) s t
    let every := fun (f : Counter → Counter) (t : State) => ∀ k : CounterId, t.m.counters[k] = f s.m.counters[k]
    Writes (.counterRun ch) s ch 0x2D00 1 [0] (fun t => t.m.netState = .run ∧ t.m.counters = s.m.counters ∧ logged t) ∧
    Writes (.counterStop ch) s ch 0x2D00 1 [1] (fun t => t.m.netState = .stopped ∧ t.m.counters = s.m.counters ∧ logged t) ∧
    Writes (.counterFreeze ch) s ch 0x2D00 1 [2] (fun t => t.m.netState = .frozen ∧ logged t ∧
      every (fun x => if s.m.netState = .frozen then x else { x with sample := x.value }) t) ∧
    Writes (.counterClear ch) s ch 0x2D00 1 [3] (fun t => t.m.netState = s.m.netState ∧ logged t ∧
      every (fun x => { x with value := 0, overflow := false, sample := if s.m.netState = .frozen then 0 else x.sample }) t) ∧
    (∀ (k : CounterId) (data : Bytes),
      let x := s.m.counters[k]
      let n := leNat data
      let sub := k.val % 128 + 1
      let fresh := fun (y : Counter) (t : State) => t.m.counters[k] = { y with value := 0, overflow := false } ∧
        (∀ j : CounterId, j ≠ k → t.m.counters[j] = s.m.counters[j]) ∧ logged t
      Writes (.counterConfigure ch k .source data) s ch (0x2D20 + k.val / 128) sub data
        (fresh { x with source := BitVec.ofNat 16 n }) ∧
      (let bad := filterBad n = true ∨ (x.owner.toNat < 4 ∧ ¬(bit n 22 = true ∧ bits n 21 20 = x.owner.toNat))
       (bad → Refuses (.counterConfigure ch k .filter data) s ch (0x2D30 + k.val / 128) sub data abRange) ∧
       (¬bad → Writes (.counterConfigure ch k .filter data) s ch (0x2D30 + k.val / 128) sub data
         (fresh { x with filter := BitVec.ofNat 32 n }))) ∧
      (n < 4 → Writes (.counterConfigure ch k .owner data) s ch (0x2D40 + k.val / 128) sub data
        (fresh { x with owner := BitVec.ofNat 8 n, filter := BitVec.ofNat 32 (forceCtx x.filter.toNat n) })) ∧
      (n = 0xFF → Writes (.counterConfigure ch k .owner data) s ch (0x2D40 + k.val / 128) sub data (fresh { x with owner := 0xFF })) ∧
      (4 ≤ n → n ≠ 0xFF → Refuses (.counterConfigure ch k .owner data) s ch (0x2D40 + k.val / 128) sub data abRange)) ∧
    ∀ (o : Occ) (n : Nat), every (fun x =>
        if s.m.netState = .stopped ∨ x.counts o = false ∨ (s.m.islands[island o.isl]).st ≠ .run then x
        else if x.value.toNat + n < 2 ^ 48 then { x with value := x.value + BitVec.ofNat 48 n }
        else { x with value := BitVec.ofNat 48 (2 ^ 48 - 1), overflow := true }) { s with m := s.m.count o n }

/-- R353, R354, R364: a reading, a failure or an absence is what its sensor holds from then on, a stale one keeps its value, and no other
sensor changes; the peaks are cleared together; the oldest queued record goes to the ring, one record tells of those discarded, and the
mirror takes the filled sectors it does not hold. -/
def Obligations.SensorsAndLogKeepTheirRecords : Prop :=
  ∀ (s : State) (n : SensorId) (ch : Channel),
    let x := s.m.sensors[n]
    let sensor := fun (p : Sensor → Prop) (t : State) => p t.m.sensors[n] ∧ (∀ k : SensorId, k ≠ n → t.m.sensors[k] = s.m.sensors[k]) ∧
      Only (fun a b => { a with sensors := b.sensors, goose := b.goose, log := b.log, counters := b.counters, mgmt := b.mgmt }) s t
    (s.m.mgmtUp = true →
      (∀ v, Ends (.sensorPoll n (.value v)) s
        (sensor fun y => y.value = v ∧ y.status = .ok ∧ y.peak = some (max v (x.peak.getD v)) ∧
          ∀ thr crit, criticalOf n.val = some (thr, crit) → (y.throttled = true ↔ thr ≤ v ∨ (x.throttled = true ∧ thr - 3000 < v)))) ∧
      Ends (.sensorPoll n .failed) s (sensor fun y => y = { x with status := .failed, throttled := false }) ∧
      Ends (.sensorPoll n .absent) s (sensor fun y => y = { x with status := .absent, throttled := false }) ∧
      (x.status = .ok → Ends (.sensorStale n) s (sensor fun y => y = { x with status := .stale, throttled := false })) ∧
      (∀ r rest, s.m.log.queue = r :: rest → rest.length < 4095 → Ends .logRecordWrite s fun t =>
        t.m.log.ring = (if s.m.log.ring.length + 1 < ringRecords then s.m.log.ring ++ [r] else (s.m.log.ring ++ [r]).drop sectorRecords) ∧
          (s.m.log.discarded = 0 → t.m.log.queue = rest) ∧
          (s.m.log.discarded ≠ 0 → ∃ q : LogRec, t.m.log.queue = rest ++ [q] ∧ q.event = 0xFE07 ∧ q.data = natLe 4 s.m.log.discarded) ∧
          t.m.log.discarded = 0 ∧ Only (fun a b => { a with log := b.log }) s t)) ∧
    (x.status ≠ .ok → exec (.sensorStale n) s = .next s) ∧
    Writes (.sensorPeakClear ch one) s ch 0x2303 0xA1 one (fun t =>
      ∀ k : SensorId, t.m.sensors[k] = { s.m.sensors[k] with peak := none }) ∧
    (s.m.grade ≠ .n → s.m.works = true → s.m.reachable [130] = true → s.m.log.mirror.length + s.m.log.unmirrored.length ≤ 2 ^ 24 →
      Ends .logMirrorCopy s fun t =>
        t.m.log = { s.m.log with mirror := s.m.log.mirror ++ s.m.log.unmirrored } ∧
          Only (fun a b => { a with log := b.log, islands := b.islands }) s t)

/-- R320 to R323: an error of one bit is corrected and only counted; one in a context's state faults that context and no other; one of
module scope faults every ENABLED context and no other, no context is enabled before the next datapath reset, and the folds whose policy
says so are fenced; the management subsystem's own state reaches no context. A fence isolates, is told once with EMCY 0xFF04, and a fence
message that has come before, or that this module sent, changes nothing; one for a fold that is not this module's goes on. -/
def Obligations.ModuleScopeErrorsAndFences : Prop :=
  ∀ (s : State) (i : IslandId) (ch : Channel) (f : FoldSlot),
    let fold := s.m.num (0x2501 + f.val) 1
    let managed := fun (t : State) => Only (fun a b => { a with mgmt := b.mgmt, log := b.log, counters := b.counters }) s t
    (s.m.mgmtUp = true →
      (Ends (.moduleScopeError ⟨i, .corrected⟩) s fun t => Only (fun a b => { a with log := b.log, counters := b.counters }) s t) ∧
      (∀ e, i = 133 → e ≠ .corrected → Ends (.moduleScopeError ⟨i, e⟩) s fun t => Told t 0xFF10 133 ∧ managed t) ∧
      (∀ c : CtxId, i ≠ 133 → (s.m.ctxs[c]).st = .enabled → Ends (.moduleScopeError ⟨i, .owned c⟩) s fun t =>
        Faulting t c .uncorrectable i.val ∧ OtherCtxs c s t ∧ (i = 127 → Told t 0xFF10 127) ∧
          Only (fun a b => { a with ctxs := b.ctxs, mgmt := b.mgmt, log := b.log, counters := b.counters }) s t) ∧
      (i ≠ 133 → Ends (.moduleScopeError ⟨i, .shared⟩) s fun t =>
        (∀ c : CtxId, (s.m.ctxs[c]).st = .enabled → Faulting t c .uncorrectable i.val) ∧
          (∀ c : CtxId, (s.m.ctxs[c]).st ≠ .enabled → t.m.ctxs[c] = s.m.ctxs[c]) ∧ t.m.pwr = { s.m.pwr with moduleScopeFault := true } ∧
          SameMemory s t ∧
          (∀ c : CtxId, (s.m.ctxs[c]).st = .enabled → s.m.foldOf c = some f → s.m.num (0x2501 + f.val) 0x11 = 1 → fold ≠ 0 →
            (t.m.net.folds[f]).fenced = true) ∧
          ((∀ k : FoldSlot, s.m.num (0x2501 + k.val) 0x11 ≠ 1 ∨ s.m.num (0x2501 + k.val) 1 = 0) →
             Told t 0xFF03 i.val ∧ t.m.net = s.m.net))) ∧
    (fold ≠ 0 → Writes (.foldFence ch f one) s ch (0x2501 + f.val) 0x10 one fun t =>
      (t.m.net.folds[f]).fenced = true ∧ Told t 0xFF04 fold ∧ t.m.ctxs = s.m.ctxs ∧ SameMemory s t) ∧
    (fold = 0 → Writes (.foldFence ch f one) s ch (0x2501 + f.val) 0x10 one fun t => t.m.net = s.m.net ∧ t.m.links = s.m.links) ∧
    (∀ (id : BitVec 16) (from_ : Coord) (n : Nat),
      let hears := fun (t : State) => t.m.net.fencesSeen = (from_, n) :: s.m.net.fencesSeen ∧ t.m.ctxs = s.m.ctxs ∧ SameMemory s t
      (s.m.mgmtUp = true → from_ ≠ s.m.net.own → s.m.net.fencesSeen.contains (from_, n) = false →
        (id ≠ 0 → fold = id.toNat → (s.m.net.folds[f]).fenced = false →
          (∀ k : FoldSlot, k ≠ f → s.m.num (0x2501 + k.val) 1 ≠ id.toNat) → Ends (.fenceMessage ⟨id, from_, n⟩) s fun t =>
            (t.m.net.folds[f]).fenced = true ∧ Told t 0xFF04 id.toNat ∧ hears t) ∧
        ((∀ k : FoldSlot, s.m.num (0x2501 + k.val) 1 = id.toNat → (s.m.net.folds[k]).fenced = true) →
          Ends (.fenceMessage ⟨id, from_, n⟩) s fun t => t.m.net.folds = s.m.net.folds ∧ hears t ∧
            Only (fun a b => { a with net := b.net }) s t)) ∧
      (from_ = s.m.net.own ∨ s.m.net.fencesSeen.contains (from_, n) = true → exec (.fenceMessage ⟨id, from_, n⟩) s = .next s))

/-- R219, R335 to R339: a new temperature band or a millisecond of load makes tiles due and nothing else; a tile whose answer is right is
recorded on its island; a wrong one makes the module SUSPECT and, when it repeats, asks for one more derate step, at the last of which the
island is condemned; health_clear gives all of that back and owes a full rotation; Bellwether's table is emptied on request. -/
def Obligations.GooseTestsAndHealth : Prop :=
  ∀ (s : State) (ch : Channel),
    let on := s.m.num 0x3000 1 ≠ 0
    let tiles := fun (is : List IslandId) (t : State) => ∀ i : IslandId, t.m.islands[i] =
      if i ∈ is then { s.m.islands[i] with tileDue := true } else s.m.islands[i]
    (∀ (die : DieId) (v : Int), s.m.dieTemp die.val = some v →
      let b := v / 5000
      let band := fun (y : Option Int) (t : State) => t.m.goose = { s.m.goose with bands := Vec.upd s.m.goose.bands die fun _ => some (b, y) }
      let mine := fun (i : IslandId) => i.val / 23 = die.val ∧ gooseTests i = true
      (s.m.goose.bands[die] = none → Ends (.gooseBandTrigger die) s fun t => band none t ∧ Only (fun a b => { a with goose := b.goose }) s t) ∧
      (∀ cur left, s.m.goose.bands[die] = some (cur, left) →
        (b = cur → exec (.gooseBandTrigger die) s = .next s) ∧
        (b ≠ cur → left = some b → Ends (.gooseBandTrigger die) s fun t =>
          band (some cur) t ∧ Only (fun a b => { a with goose := b.goose }) s t) ∧
        (b ≠ cur → left ≠ some b → on → Ends (.gooseBandTrigger die) s fun t =>
          band (some cur) t ∧ (∀ i : IslandId, t.m.islands[i] =
            if mine i then { s.m.islands[i] with tileDue := true } else s.m.islands[i]) ∧
            t.m.counters = (s.m.cnt 0x4004 (23 * die.val + 18)).counters ∧
            Only (fun a b => { a with goose := b.goose, islands := b.islands, counters := b.counters }) s t))) ∧
    (∀ i, on → gooseIslands[s.m.goose.tilesRun % 40]? = some i → Ends .gooseLoadTrigger s fun t =>
      tiles [i] t ∧ Only (fun a b => { a with islands := b.islands }) s t) ∧
    (∀ (i : IslandId) (r : Nat) (again : Bool) (rowFault : Option (Fin 99)),
      let x := s.m.islands[i]
      let loom := decide (i.val % 23 < 9)
      gooseTests i = true → x.tileDue = true ∨ s.m.goose.rotating = true → x.effective = x.wanted → s.m.midWork i = false →
         s.m.works = true →
      s.m.reachable [i] = true →
      (r = Config.gooseAnswer i.val s.m.goose.tilesRun → Ends (.gooseTile i r again rowFault) s fun t =>
        t.m.islands[i] = { x with st := .run, tileDue := false, lastPass := s.m.now } ∧
          t.m.goose = { s.m.goose with tilesRun := (s.m.goose.tilesRun + 1) % 2 ^ 32 } ∧ OtherIslands i s t ∧
          Only (fun a b => { a with islands := b.islands, goose := b.goose }) s t) ∧
      (r ≠ Config.gooseAnswer i.val s.m.goose.tilesRun → Ends (.gooseTile i r again rowFault) s fun t =>
        bit t.m.goose.cause.toNat (if loom then 0 else 1) = true ∧ (t.m.islands[i]).failedSinceClear = true ∧ OtherIslands i s t ∧
          Told t 0xFF0E i.val ∧ SameMemory s t ∧
          (again = true → x.failedSinceClear = false → (t.m.islands[i]).reqGoose = x.reqGoose ∧ (t.m.islands[i]).condemned = x.condemned) ∧
          (again = false ∨ x.failedSinceClear = true →
            (x.effective ≠ 3 → (t.m.islands[i]).reqGoose = x.effective + 1 ∧ (t.m.islands[i]).tileDue = true) ∧
            (x.effective = 3 → (t.m.islands[i]).condemned = true)))) ∧
    Writes (.healthClear ch one) s ch 0x3000 8 one (fun t =>
      t.m.goose = { s.m.goose with cause := 0, rotating := true } ∧
        ∀ i : IslandId, (t.m.islands[i]).reqGoose = 0 ∧ (t.m.islands[i]).condemned = false ∧
          (t.m.islands[i]).failedSinceClear = false ∧ (t.m.islands[i]).repairExhausted = false ∧
           (gooseTests i = true → (t.m.islands[i]).tileDue = true)) ∧
    (s.m.tilesOwed gooseIslands = false → Ends .gooseRotationDone s fun t =>
      t.m.goose = { s.m.goose with rotating := false } ∧ Only (fun a b => { a with goose := b.goose }) s t) ∧
    (s.m.tilesOwed gooseIslands = true → exec .gooseRotationDone s = .next s) ∧
    Writes (.suspectMark ch one) s ch 0x3000 7 one (fun t =>
      t.m.goose = { s.m.goose with cause := s.m.goose.cause ||| 16 } ∧ t.m.ctxs = s.m.ctxs) ∧
    Writes (.bellwetherClear ch one) s ch 0x2C02 1 one (fun t =>
      t.m.shut = { s.m.shut with named := Vector.replicate 4 [], suspects := [] } ∧ t.m.ctxs = s.m.ctxs)

/-! ### Firmware update, fuses, boot (R367 to R375) -/

/-- R367, R368, R375: an update session goes from erased to receiving, verifying, valid and staged on the channel that began it, and never
touches the bank that runs; a command out of its state, or of another channel, is refused; a bank verifies only where header, key hash,
signatures and version all hold. -/
def Obligations.FirmwareUpdateGoesInOrder : Prop :=
  ∀ (s : State) (ch : Channel),
    let w := s.m.fw
    let i := w.inactive
    let mine := w.session = .idle ∨ w.owner = ch
    let cmd := fun (c : Instr) (v : Byte) (ok : Prop) (P : State → Prop) =>
      (ok → mine → Writes c s ch 0x2F01 1 [v] fun t => P t ∧ t.m.fw.banks[w.running] = w.banks[w.running] ∧ t.m.fw.running = w.running ∧
        Only (fun a b => { a with fw := b.fw, log := b.log, counters := b.counters, out := b.out }) s t) ∧
      (¬ok ∨ ¬mine → Refuses c s ch 0x2F01 1 [v] abState)
    cmd (.fwBegin ch) 1 ((w.banks[w.running]).st = .confirmed ∧ w.session ∈ [FwSession.idle, .valid, .staged]) (fun t =>
      t.m.fw.session = .erasing ∧ t.m.fw.owner = ch ∧ t.m.fw.received = 0 ∧ t.m.fw.banks[i] = ⟨[], .empty, [], 0⟩) ∧
    cmd (.fwVerify ch) 2 (w.session = .receiving) (fun t => t.m.fw = { w with session := .verifying }) ∧
    cmd (.fwStage ch) 3 (w.session = .valid) (fun t =>
      t.m.fw.session = .staged ∧ t.m.fw.banks[i] = { w.banks[i] with st := .staged } ∧ t.m.fw.attempts = 0) ∧
    cmd (.fwCancel ch) 4 True (fun t =>
      (w.session = .staged → t.m.fw.session = .valid ∧ t.m.fw.banks[i] = { w.banks[i] with st := .valid }) ∧
        (w.session ≠ .staged → t.m.fw.session = .idle) ∧
        (w.session ∈ [FwSession.erasing, .receiving, .verifying] → (t.m.fw.banks[i]).st = .invalid)) ∧
    (s.m.mgmtUp = true → w.session = .erasing → Ends .fwEraseComplete s fun t =>
      t.m.fw = { w with session := .receiving } ∧ Only (fun a b => { a with fw := b.fw }) s t) ∧
    (∀ (off : Nat) (data : Bytes),
      (off = w.received → off + data.length ≤ 2 ^ 25 → w.session = .receiving → w.owner = ch →
        Writes (.fwImage ch off data) s ch 0x2F01 3 data fun t =>
          t.m.fw.banks[i] = { w.banks[i] with image := (w.banks[i]).image ++ data } ∧ t.m.fw.received = w.received + data.length ∧
            t.m.fw.session = .receiving ∧ t.m.fw.banks[w.running] = w.banks[w.running]) ∧
      (off ≠ w.received ∨ 2 ^ 25 < off + data.length → Refuses (.fwImage ch off data) s ch 0x2F01 3 data abRange)) ∧
    (s.m.mgmtUp = true → w.session = .verifying →
      (∀ d, (w.banks[i]).verify s.fuses = .ok d → Ends .fwVerifyComplete s fun t =>
        t.m.fw.session = .valid ∧ (t.m.fw.banks[i]).st = .valid ∧ (t.m.fw.banks[i]).digest = d ∧
          t.m.fw.banks[w.running] = w.banks[w.running] ∧ Only (fun a b => { a with fw := b.fw }) s t) ∧
      (∀ e, (w.banks[i]).verify s.fuses = .error e → Ends .fwVerifyComplete s fun t =>
        t.m.fw.session = .idle ∧ (t.m.fw.banks[i]).st = .invalid ∧ t.m.fw.status = e ∧
          t.m.fw.banks[w.running] = w.banks[w.running] ∧ Only (fun a b => { a with fw := b.fw }) s t)) ∧
    ∀ (b : Bank) (f : Fuses) (d : Bytes), b.verify f = .ok d →
      headerBad b.header = false ∧ sha3 (b.bytes 128 1312) = vendorHash ∧ d = b.imageDigest ∧
        Config.mldsaVerify (b.bytes 128 1312) d (b.bytes 1440 2420) (ascii "VLS-FW") = true ∧ f.rollbackCount ≤ hdrVersion b.header ∧
        (f.ownerEnrolled = true → hdrOwnerSigned b.header = true ∧ sha3 (b.bytes 3860 1312) = f.ownerHash ∧
          Config.mldsaVerify (b.bytes 3860 1312) d (b.bytes 5172 2420) (ascii "VLS-FW-OWNER") = true)

/-- R369 to R371: a commit with the code "fuse" within the operating voltage blows its fuses and is answered; a wrong code, a voltage
outside the limits, and a second owner key that differs are refused and blow nothing; the counter of versions rises to the running image's
and never past it. -/
def Obligations.FuseCommitsBlowTheirFuses : Prop :=
  ∀ (s : State) (ch : Channel) (data hash : Bytes),
    let code := natLe 4 fuseCode
    let confirmed := (s.m.fw.banks[s.m.fw.running]).st = .confirmed
    let rest := fun (t : State) => Only (fun a b => { a with log := b.log, counters := b.counters, out := b.out }) { s with fuses := t.fuses } t
    (s.m.fuseVoltageBad = false →
      Writes (.secureBootFuseCommit ch code) s ch 0x2F02 4 code (fun t => t.fuses = { s.fuses with secureBoot := true } ∧ rest t) ∧
      (hash.length = 32 → hashCovers hash s.fuses.ownerHash = true → s.fuses.ownerEnrolled = false ∨ hash = s.fuses.ownerHash →
        Writes (.ownerKeyEnroll ch (code ++ hash)) s ch 0x2F02 3 (code ++ hash) fun t =>
          t.fuses = { s.fuses with ownerHash := hash, ownerEnrolled := true } ∧ rest t) ∧
      (hash.length = 32 → s.fuses.ownerEnrolled = true → hash ≠ s.fuses.ownerHash →
        Refuses (.ownerKeyEnroll ch (code ++ hash)) s ch 0x2F02 3 (code ++ hash) abStore) ∧
      (confirmed → FuseForm s.fuses → Writes (.rollbackAdvance ch code) s ch 0x2F02 6 code fun t =>
        t.fuses.rollbackCount = max s.fuses.rollbackCount (min 64 (hdrVersion s.m.runningHeader)) ∧
          t.fuses = { s.fuses with rollback := t.fuses.rollback } ∧ rest t) ∧
      (¬confirmed → Refuses (.rollbackAdvance ch code) s ch 0x2F02 6 code abState)) ∧
    (s.m.fuseVoltageBad = true → Refuses (.secureBootFuseCommit ch code) s ch 0x2F02 4 code abState ∧
      Refuses (.rollbackAdvance ch code) s ch 0x2F02 6 code abState ∧
      (hash.length = 32 → Refuses (.ownerKeyEnroll ch (code ++ hash)) s ch 0x2F02 3 (code ++ hash) abState)) ∧
    (leNat data ≠ fuseCode → Refuses (.secureBootFuseCommit ch data) s ch 0x2F02 4 data abStore ∧
      Refuses (.rollbackAdvance ch data) s ch 0x2F02 6 data abStore) ∧
    (getLe data 0 4 ≠ fuseCode → Refuses (.ownerKeyEnroll ch data) s ch 0x2F02 3 data abStore)

/-- R373: the boot ROM runs the bank its order names where that bank may run: a confirmed one that verifies or need not, or one on trial
that verifies and has attempts left, one of which it uses; a bank that fails under enforcement is INVALID and the other one is taken; with
none left the module stays in its boot loop. Firmware on trial confirms its bank and stores boot_bank. -/
def Obligations.BootTakesABankThatMayRun : Prop :=
  ∀ s : State,
    let m := if s.m.pwr.mgmtResetting then s.m else s.m.loadStore
    let i := m.firstBank
    let b := m.fw.banks[i]
    let o := m.fw.banks[i + 1]
    let fine := fun (b : Bank) => (b.verify s.fuses).toBool = true ∨ m.enforced s.fuses = false
    let runs := fun (k : Fin 2) (t : State) => t.m.pwr.boot = .running ∧ t.m.fw.running = k ∧ t.m.mgmt.nmt = .preOperational ∧
      t.m.ctxs = s.m.ctxs ∧ t.m.links = s.m.links ∧ SameMemory s t
    (s.m.romReady = true →
      (b.st = .confirmed → fine b → Ends .boot s fun t => runs i t ∧ (t.m.fw.banks[i]).st = .confirmed ∧ t.m.fw.attempts = m.fw.attempts) ∧
      (b.st = .staged ∨ b.st = .trial → m.fw.attempts < 3 → fine b → Ends .boot s fun t =>
        runs i t ∧ (t.m.fw.banks[i]).st = .trial ∧ t.m.fw.attempts = m.fw.attempts + 1) ∧
      (b.st = .confirmed ∨ ((b.st = .staged ∨ b.st = .trial) ∧ m.fw.attempts < 3) → ¬fine b → o.st = .confirmed → fine o →
        Ends .boot s fun t => runs (i + 1) t ∧ (t.m.fw.banks[i]).st = .invalid) ∧
      (b.st = .staged ∨ b.st = .trial → 3 ≤ m.fw.attempts → o.st = .confirmed → fine o → Ends .boot s fun t =>
        runs (i + 1) t ∧ (t.m.fw.banks[i]).st = .invalid ∧ t.m.fw.attempts = 0) ∧
      (b.st = .empty ∨ b.st = .invalid → o.st = .confirmed → fine o → Ends .boot s (runs (i + 1))) ∧
      (b.st = .empty ∨ b.st = .invalid → o.st = .empty ∨ o.st = .invalid → Ends .boot s fun t =>
        t.m.pwr.boot = .bootLoop ∧ t.m.ctxs = s.m.ctxs ∧ SameMemory s t)) ∧
    (s.m.romReady = false → exec .boot s = .next s) ∧
    ((s.m.fw.banks[s.m.fw.running]).st = .trial → s.m.mgmtUp = true → Ends .bootConfirm s fun t =>
      let k := s.m.fw.running
      t.m.fw.banks[k] = { s.m.fw.banks[k] with st := .confirmed } ∧ t.m.fw.attempts = 0 ∧ t.m.num 0x2F00 11 = k.val ∧
        bit (t.m.num 0x2000 2) 9 = true ∧ t.m.ctxs = s.m.ctxs ∧ SameMemory s t ∧
        (s.m.mgmt.store = none → storedNum t.m.mgmt.storeVals 0x2F00 11 2 = k.val))

/-! ### Module states, resets, power and temperature (R382 to R405) -/

namespace Sys2Proof.Claims

/-- Islands of a list are in a state, and every other island is as it was. -/
def IslandsNow (s t : State) (is : List IslandId) (st : IslandState) : Prop :=
  ∀ i : IslandId, if i ∈ is then (t.m.islands[i]).st = st else t.m.islands[i] = s.m.islands[i]

/-- The datapath has stopped: every context DISABLED with nothing queued, every link down, scratchpad all zero, no engine with work. -/
def DatapathStopped (t : State) : Prop :=
  (∀ c : CtxId, (t.m.ctxs[c]).st = .disabled ∧ (t.m.ctxs[c]).cmdQ = [] ∧ (t.m.ctxs[c]).words = []) ∧
    (∀ l : LinkId, (t.m.links[l]).st = .disabled) ∧ t.m.spad = [] ∧ t.m.arrays = [] ∧ t.m.vecs = [] ∧ t.m.audits = [] ∧
     t.m.mv.jobs = [] ∧
    t.m.shut.colls = [] ∧ t.m.drover.jobs = []

end Sys2Proof.Claims

/-- R382 to R386, R390: a state is requested where its condition holds and no transition or reset runs, and is refused elsewhere; the
request alone moves nothing but the answer, for STANDBY with a request for Ls on each link that carries flits. The transition ends in that
state: QUIET with dies and scratchpad off, STANDBY with dies and engines off and only once no link carries flits, MGMT_ONLY with
everything but the management island off, ACTIVE with the dies running. IDLE gates the dies while nothing needs them and wakes them when
something does; QUIET wakes on traffic. -/
def Obligations.ModuleStatesFollowTheirConditions : Prop :=
  ∀ (s : State) (ch : Channel),
    let free := s.m.pwr.transition = none ∧ s.m.pwr.resetting = none
    let asked := fun (st : ModState) (t : State) => t.m.pwr = { s.m.pwr with transition := some st } ∧ t.m.islands = s.m.islands ∧
      t.m.ctxs = s.m.ctxs ∧ t.m.links = s.m.links ∧ SameMemory s t
    let now := fun (st : ModState) (t : State) => t.m.pwr.modState = st ∧ t.m.pwr.transition = none
    let dies := loomIslands ++ vectorIslands
    (∀ row ∈ [(Instr.stateRequestActive, (0 : Byte), ModState.active), (.stateRequestQuiet, 2, .quiet), (.stateRequestStandby, 3, .standby),
        (.stateRequestMgmtOnly, 4, .mgmtOnly)],
      (free → s.m.mayGo row.2.2 = true → Writes (row.1 ch) s ch 0x2010 4 [row.2.1] (asked row.2.2)) ∧
      (¬free ∨ s.m.mayGo row.2.2 = false → Refuses (row.1 ch) s ch 0x2010 4 [row.2.1] abState)) ∧
    (s.m.pwr.transition = some .quiet → s.m.mayGo .quiet = true → Ends .stateTransitionComplete s fun t =>
      now .quiet t ∧ IslandsNow s t (dies ++ spadIslands) .powerGated ∧ t.m.spad = s.m.spad ∧ t.m.ctxs = s.m.ctxs) ∧
    (s.m.pwr.transition = some .standby → s.m.mayGo .standby = true → (∀ l : LinkId, (s.m.links[l]).flows = false) →
      Ends .stateTransitionComplete s fun t =>
        now .standby t ∧ (∀ i ∈ standbyOff, (t.m.islands[i]).st = .powerGated) ∧ t.m.spad = [] ∧ t.m.ctxs = s.m.ctxs) ∧
    (s.m.pwr.transition = some .standby → (∃ l : LinkId, (s.m.links[l]).flows = true) → exec .stateTransitionComplete s = .next s) ∧
    (s.m.pwr.transition = some .mgmtOnly → s.m.mayGo .mgmtOnly = true → Ends .stateTransitionComplete s fun t =>
      now .mgmtOnly t ∧ DatapathStopped t ∧ t.m.dram = [] ∧ t.m.mem.dramState = 0 ∧
        ∀ i : IslandId, i ≠ 133 → (t.m.islands[i]).st = .powerGated) ∧
    (s.m.pwr.transition = some .active → s.m.mayGo .active = true → Ends .stateTransitionComplete s fun t =>
      now .active t ∧ ∀ i ∈ dies, (t.m.islands[i]).st = .run) ∧
    (s.m.pwr.modState = .active → s.m.diesWanted = false → Ends .idleEntry s fun t =>
      t.m.pwr = { s.m.pwr with modState := .idle } ∧ (∀ i ∈ dies, (s.m.islands[i]).st = .run → (t.m.islands[i]).st = .clockGated) ∧
        Only (fun a b => { a with pwr := b.pwr, islands := b.islands }) s t) ∧
    (s.m.diesWanted = true → exec .idleEntry s = .next s) ∧
    (s.m.pwr.modState = .idle → s.m.diesWanted = true → Ends .idleWake s fun t =>
      t.m.pwr = { s.m.pwr with modState := .active } ∧ (∀ i ∈ dies, (t.m.islands[i]).st ≠ .clockGated) ∧
        Only (fun a b => { a with pwr := b.pwr, islands := b.islands }) s t) ∧
    (s.m.pwr.modState = .quiet → Ends .quietWake s fun t =>
      t.m.pwr.modState = .active ∧ IslandsNow s t (dies ++ spadIslands) .run ∧ t.m.spad = s.m.spad ∧ t.m.net = s.m.net)

/-- R387 to R390, R394, R396 to R398: a warm or management-only reset is answered first and changes nothing until it begins. A datapath
reset stops the datapath at once: with DRAM kept every DRAM byte stays and a FROZEN slot is FAILED, with DRAM lost every slot is FREE. A
request that a running reset absorbs changes nothing; a recovery boot refuses a datapath reset. A warm reset stops the datapath and
management, and timestamp and fuses go on; a management-only one touches management alone. A reset that completes releases the datapath,
unless a recovery boot or a trip not yet cooled holds it. Lost power leaves fuses, firmware images, stored copies and the log's ring; when
power comes up timestamps start at 0 and the boot is counted; RESET_N low holds every island in RESET. -/
def Obligations.ResetsTakeTheirScope : Prop :=
  ∀ (s : State) (ch : Channel) (straps : BitVec 16),
    let kind := fun (n : Nat) => natLe 4 (0x72737400 + n)
    let off := fun (t : State) => t.m.pwr.modState = .off ∧ t.m.spad = [] ∧ t.m.dram = [] ∧ t.m.dict = [] ∧ t.fuses = s.fuses ∧
      t.m.mgmt.copies = s.m.mgmt.copies ∧ t.m.log.ring = s.m.log.ring ∧ t.m.fw.running = s.m.fw.running ∧
      (∀ b : Fin 2, (t.m.fw.banks[b]).image = (s.m.fw.banks[b]).image)
    let still := fun (p : Pwr) (t : State) => t.m.pwr = p ∧ t.m.ctxs = s.m.ctxs ∧ t.m.islands = s.m.islands ∧ t.m.links = s.m.links ∧
      t.m.drover = s.m.drover ∧ SameMemory s t
    let dp := fun (k : ResetKind) (t : State) => t.m.pwr.modState = .mgmtOnly ∧ t.m.pwr.resetting = some k ∧ t.m.pwr.lastCause = 5 ∧
      t.m.pwr.dpResetCount = s.m.pwr.dpResetCount + 1 ∧ DatapathStopped t ∧
       (t.m.islands[(133 : IslandId)]).st = (s.m.islands[(133 : IslandId)]).st ∧
      t.m.mgmt.nmt = s.m.mgmt.nmt
    let power := fun (p : Pwr) (t : State) => t.m.pwr = p ∧ Only (fun a b => { a with pwr := b.pwr }) s t
    (s.m.absorbs .warm = false →
      Writes (.warmResetRequest ch) s ch 0x2010 1 (kind 1) (still { s.m.pwr with resetDue := some .warm }) ∧
      (s.m.pwr.resetDue ≠ some .warm →
        Writes (.managementOnlyReset ch) s ch 0x2010 1 (kind 4) (still { s.m.pwr with resetDue := some .mgmtOnly }))) ∧
    (s.m.absorbs .warm = true → Writes (.warmResetRequest ch) s ch 0x2010 1 (kind 1) (still s.m.pwr)) ∧
    (s.m.absorbs .warm = true ∨ s.m.pwr.resetDue = some .warm → Writes (.managementOnlyReset ch) s ch 0x2010 1 (kind 4) (still s.m.pwr)) ∧
    (s.m.recovery = false →
      (s.m.absorbs .dpKept = false → Writes (.datapathResetDramKept ch) s ch 0x2010 1 (kind 2) fun t =>
        dp .dpKept t ∧ (∀ a n, t.m.dramRead a n = s.m.dramRead a n) ∧
          ∀ k : Fin 2, if (s.m.drover.slots[k]).st = .frozen then (t.m.drover.slots[k]).st = .failed
            else t.m.drover.slots[k] = s.m.drover.slots[k]) ∧
      (s.m.absorbs .dpLost = false → Writes (.datapathResetDramLost ch) s ch 0x2010 1 (kind 3) fun t =>
        dp .dpLost t ∧ t.m.dram = [] ∧ t.m.mem.dramState = 0 ∧ ∀ k : Fin 2, (t.m.drover.slots[k]).st = .free) ∧
      (s.m.absorbs .dpKept = true → Writes (.datapathResetDramKept ch) s ch 0x2010 1 (kind 2) (still s.m.pwr)) ∧
      (s.m.absorbs .dpLost = true → Writes (.datapathResetDramLost ch) s ch 0x2010 1 (kind 3) (still s.m.pwr))) ∧
    (s.m.recovery = true → Refuses (.datapathResetDramKept ch) s ch 0x2010 1 (kind 2) abState ∧
      Refuses (.datapathResetDramLost ch) s ch 0x2010 1 (kind 3) abState) ∧
    (s.m.pwr.resetDue = some .warm → Ends (.resetBegin straps) s fun t =>
      DatapathStopped t ∧ t.m.dram = [] ∧ t.m.pwr.lastCause = 4 ∧ t.m.pwr.straps = straps ∧ t.m.pwr.boot = .rom ∧
       t.m.pwr.resetDue = none ∧
        t.m.mgmt.nmt = .initialisation ∧ t.m.now = s.m.now ∧ t.fuses = s.fuses) ∧
    (s.m.pwr.resetDue = some .mgmtOnly → Ends (.resetBegin straps) s fun t =>
      t.m.pwr.mgmtResetting = true ∧ t.m.pwr.boot = .rom ∧ t.m.pwr.lastCause = 7 ∧ t.m.mgmt.nmt = .initialisation ∧
        Only (fun a b => { a with mgmt := b.mgmt, log := b.log, fw := b.fw, pwr := b.pwr }) s t) ∧
    (∀ k, s.m.pwr.resetting = some k → s.m.mgmtUp = true → s.m.pwr.resetNLow = false →
      (s.m.recovery = false → s.m.pwr.tripped = false ∨ s.m.cooled = true → Ends .resetComplete s fun t =>
        t.m.pwr.resetting = none ∧ t.m.pwr.modState = .active ∧ t.m.pwr.tripped = false ∧
          (∀ i : IslandId, i ≠ 133 → (t.m.islands[i]).st = .run) ∧ t.m.spad = [] ∧
          (k ≠ .dpKept → t.m.mem.dramState = 1) ∧ (k = .dpKept → s.m.mem.dramState = 3 → t.m.mem.dramState = 2)) ∧
      (s.m.recovery = true ∨ (s.m.pwr.tripped = true ∧ s.m.cooled = false) → Ends .resetComplete s
        (power { s.m.pwr with resetting := none }))) ∧
    (s.m.pwr.modState = .off →
      (Ends (.coldReset straps) s fun t =>
        t.m.now = 0 ∧ t.m.pwr.modState = .mgmtOnly ∧ t.m.pwr.resetting = some .cold ∧ t.m.pwr.bootCount = s.m.pwr.bootCount + 1 ∧
          t.m.pwr.lastCause = (if s.m.pwr.brownOut then 2 else 1) ∧ t.fuses = s.fuses ∧
          (s.m.pwr.resetNLow = false → t.m.pwr.straps = straps ∧ (t.m.islands[(133 : IslandId)]).st = .run) ∧
          (s.m.pwr.resetNLow = true → (t.m.islands[(133 : IslandId)]).st = .reset)) ∧
      (s.m.pwr.resetNLow = false → Ends .resetNAssert s (power { s.m.pwr with resetNLow := true })) ∧
      (s.m.pwr.resetNLow = true → Ends (.resetNRelease straps) s (power { s.m.pwr with resetNLow := false }))) ∧
    (s.m.pwr.modState ≠ .off →
      (Ends .powerDown s fun t => off t ∧ t.m.pwr.inputFaults = s.m.pwr.inputFaults + if s.m.brownedOut then 1 else 0) ∧
      (Ends .overvoltageTrip s fun t => off t ∧ t.m.pwr.brownOut = true ∧ t.m.pwr.inputFaults = s.m.pwr.inputFaults + 1) ∧
      (s.m.pwr.resetNLow = false → Ends .resetNAssert s fun t =>
        t.m.pwr.resetNLow = true ∧ t.m.pwr.lastCause = (if s.m.pwr.resetting = some .cold then s.m.pwr.lastCause else 3) ∧
          DatapathStopped t ∧ ∀ i : IslandId, (t.m.islands[i]).st = .reset) ∧
      (s.m.pwr.resetNLow = true → Ends (.resetNRelease straps) s fun t =>
        t.m.pwr = { s.m.pwr with resetNLow := false, straps := straps } ∧ (t.m.islands[(133 : IslandId)]).st = .run ∧
          Only (fun a b => { a with pwr := b.pwr, islands := b.islands }) s t))

/-- R401, R403 to R405: above the cap every Loom and vector island's power request goes up one step, and after 100 quiet milliseconds down
one; a die at its throttle point goes up one thermal step on its own islands, and after 100 ms below the release point down one; a sensor
at its critical point shuts the datapath down whatever runs. -/
def Obligations.PowerAndHeatDerateIslands : Prop :=
  ∀ s : State,
    let dies := loomIslands ++ vectorIslands
    let change := fun (is : List IslandId) (f : Island → Island) (t : State) =>
      ∀ i : IslandId, t.m.islands[i] = if i ∈ is then f s.m.islands[i] else s.m.islands[i]
    let up := fun (x : BitVec 2) => BitVec.ofNat 2 (min 3 (x.toNat + 1))
    let down := fun (x : BitVec 2) => BitVec.ofNat 2 (x.toNat - 1)
    let cap := s.m.num 0x2200 3
    (s.m.mgmtUp = true → ∀ w : Nat,
      let tick := fun (quiet : Nat) (t : State) =>
        t.m.pwr = { s.m.pwr with inputW := w, energyMj := s.m.pwr.energyMj + w, capQuietMs := quiet } ∧
          Only (fun a b => { a with pwr := b.pwr, islands := b.islands }) s t
      (cap < w ∨ s.m.stageHot = true → Ends (.powerCapTick w) s fun t =>
        tick 0 t ∧ change dies (fun x => { x with reqPower := up x.reqPower }) t) ∧
      (w ≤ cap → s.m.stageHot = false → w * 100 < cap * 95 → 99 ≤ s.m.pwr.capQuietMs → Ends (.powerCapTick w) s fun t =>
        tick 0 t ∧ change dies (fun x => { x with reqPower := down x.reqPower }) t) ∧
      (w ≤ cap → s.m.stageHot = false → w * 100 < cap * 95 → s.m.pwr.capQuietMs < 99 → Ends (.powerCapTick w) s fun t =>
        tick (s.m.pwr.capQuietMs + 1) t ∧ t.m.islands = s.m.islands) ∧
      (w ≤ cap → s.m.stageHot = false → cap * 95 ≤ w * 100 → Ends (.powerCapTick w) s fun t =>
        tick 0 t ∧ t.m.islands = s.m.islands)) ∧
    (s.m.mgmtUp = true → ∀ die : Fin 5,
      let is := throttled die.val
      let ticks := fun (n : Nat) (t : State) =>
        t.m.pwr = { s.m.pwr with coolTicks := Vec.upd s.m.pwr.coolTicks die fun _ => n } ∧
          Only (fun a b => { a with pwr := b.pwr, islands := b.islands, counters := b.counters }) s t
      (s.m.dieHot die.val = true → Ends (.thermalThrottleTick die) s fun t =>
        ticks 0 t ∧ change is (fun x => { x with reqThermal := up x.reqThermal }) t) ∧
      (s.m.dieHot die.val = false → s.m.dieCool die.val = true → 9 ≤ s.m.pwr.coolTicks[die] → Ends (.thermalThrottleTick die) s fun t =>
        ticks 0 t ∧ change is (fun x => { x with reqThermal := down x.reqThermal }) t) ∧
      (s.m.dieHot die.val = false → s.m.dieCool die.val = true → s.m.pwr.coolTicks[die] < 9 → Ends (.thermalThrottleTick die) s fun t =>
        ticks (s.m.pwr.coolTicks[die] + 1) t ∧ t.m.islands = s.m.islands) ∧
      (s.m.dieHot die.val = false → s.m.dieCool die.val = false → Ends (.thermalThrottleTick die) s fun t =>
        ticks 0 t ∧ t.m.islands = s.m.islands)) ∧
    ∀ n : SensorId, criticalOf n.val ≠ none → s.m.pwr.modState ≠ .off → n.val < 108 ∨ s.m.mgmtUp = true → Ends (.thermalTrip n) s fun t =>
      t.m.pwr.modState = .mgmtOnly ∧ t.m.pwr.tripped = true ∧ t.m.pwr.tripCount = s.m.pwr.tripCount + 1 ∧
       DatapathStopped t ∧ t.m.dram = [] ∧
        (∀ i : IslandId, i ≠ 133 → (t.m.islands[i]).st = .powerGated) ∧ Told t 0x4210 (0x80000000 + n.val)
end

