-- ==== Sys2Proof/Laws/State.lean ====
section
/-! SUPPORT. What each update of the machine leaves alone, field by field: one lemma per update, split by simp into one rewrite
per field. No later proof unfolds a record update. -/

namespace Sys2Proof.Machine

open Sys2Proof

/-- What a change of the machine proper leaves alone. -/
@[simp] theorem State.onMach_pending (s : State) (f : Mach → Mach) : (s.onMach f).pending = s.pending := rfl
@[simp] theorem State.onMach_fuses (s : State) (f : Mach → Mach) : (s.onMach f).fuses = s.fuses := rfl
@[simp] theorem State.onMach_m (s : State) (f : Mach → Mach) : (s.onMach f).m = f s.m := rfl

/-! ### The line of ready slots (R132): only `line` follows a change of a context -/

@[simp] theorem Ctx.noted_st (x : Ctx) (n : Nat) : (x.noted n).st = x.st := rfl
@[simp] theorem Ctx.noted_cause (x : Ctx) (n : Nat) : (x.noted n).cause = x.cause := rfl
@[simp] theorem Ctx.noted_expected (x : Ctx) (n : Nat) : (x.noted n).expected = x.expected := rfl
@[simp] theorem Ctx.noted_cmdQ (x : Ctx) (n : Nat) : (x.noted n).cmdQ = x.cmdQ := rfl
@[simp] theorem Ctx.noted_queues (x : Ctx) (n : Nat) : (x.noted n).queues = x.queues := rfl
@[simp] theorem Ctx.noted_words (x : Ctx) (n : Nat) : (x.noted n).words = x.words := rfl
@[simp] theorem Ctx.noted_lastWord (x : Ctx) (n : Nat) : (x.noted n).lastWord = x.lastWord := rfl
@[simp] theorem Ctx.noted_nextUid (x : Ctx) (n : Nat) : (x.noted n).nextUid = x.nextUid := rfl
@[simp] theorem Ctx.noted_faultEng (x : Ctx) (n : Nat) : (x.noted n).faultEng = x.faultEng := rfl
@[simp] theorem Ctx.noted_pendingFault (x : Ctx) (n : Nat) : (x.noted n).pendingFault = x.pendingFault := rfl
@[simp] theorem Ctx.noted_heddle (x : Ctx) (n : Nat) : (x.noted n).heddle = x.heddle := rfl
@[simp] theorem Ctx.noted_lastCommitted (x : Ctx) (n : Nat) : (x.noted n).lastCommitted = x.lastCommitted := rfl
@[simp] theorem Ctx.noted_recordSeq (x : Ctx) (n : Nat) : (x.noted n).recordSeq = x.recordSeq := rfl
@[simp] theorem Ctx.noted_recordQ (x : Ctx) (n : Nat) : (x.noted n).recordQ = x.recordQ := rfl
@[simp] theorem Ctx.noted_unacked (x : Ctx) (n : Nat) : (x.noted n).unacked = x.unacked := rfl
@[simp] theorem Ctx.noted_consumed (x : Ctx) (n : Nat) : (x.noted n).consumed = x.consumed := rfl
@[simp] theorem Ctx.noted_faultRec (x : Ctx) (n : Nat) : (x.noted n).faultRec = x.faultRec := rfl
@[simp] theorem Ctx.noted_heddleDump (x : Ctx) (n : Nat) : (x.noted n).heddleDump = x.heddleDump := rfl
@[simp] theorem Ctx.noted_wordBytes (x : Ctx) (n : Nat) : (x.noted n).wordBytes = x.wordBytes := rfl
@[simp] theorem Ctx.noted_seed (x : Ctx) (n : Nat) : (x.noted n).seed = x.seed := rfl
@[simp] theorem Ctx.noted_step (x : Ctx) (n : Nat) : (x.noted n).step = x.step := rfl
@[simp] theorem Ctx.noted_stepHold (x : Ctx) (n : Nat) : (x.noted n).stepHold = x.stepHold := rfl
@[simp] theorem Ctx.noted_windowPending (x : Ctx) (n : Nat) : (x.noted n).windowPending = x.windowPending := rfl
@[simp] theorem Ctx.noted_voided (x : Ctx) (n : Nat) : (x.noted n).voided = x.voided := rfl
@[simp] theorem Ctx.noted_qps (x : Ctx) (n : Nat) : (x.noted n).qps = x.qps := rfl
@[simp] theorem Ctx.noted_mws (x : Ctx) (n : Nat) : (x.noted n).mws = x.mws := rfl

/-! ### The entry that an update changes -/

@[simp] theorem Vec.upd_get {α : Type} {n : Nat} (v : Vector α n) (i : Fin n) (f : α → α) (j : Nat) (h : j < n) :
    (Vec.upd v i f)[j] = if i.val = j then f v[j] else v[j] := by
  unfold Vec.upd
  rw [Vector.getElem_set]
  split
  · rename_i e; subst e; rfl
  · rfl

theorem Vec.upd_self {α : Type} {n : Nat} (v : Vector α n) (i : Fin n) (f : α → α) : (Vec.upd v i f)[i] = f v[i] := by simp

theorem Vec.upd_other {α : Type} {n : Nat} (v : Vector α n) (i j : Fin n) (f : α → α) (h : i ≠ j) :
    (Vec.upd v i f)[j] = v[j] := by
  have h' : i.val ≠ j.val := fun e => h (Fin.ext e)
  simp [h']

@[simp] theorem Mach.modCtx_ctxs (m : Mach) (c : CtxId) (f : Ctx → Ctx) :
    (m.modCtx c f).ctxs = Vec.upd m.ctxs c fun x => (f x).noted m.nextInLine := rfl
@[simp] theorem Mach.modIsland_islands (m : Mach) (i : IslandId) (f : Island → Island) :
    (m.modIsland i f).islands = Vec.upd m.islands i f := rfl
@[simp] theorem Mach.modLink_links (m : Mach) (l : LinkId) (f : Link → Link) : (m.modLink l f).links = Vec.upd m.links l f := rfl
@[simp] theorem Mach.modPool_pools (m : Mach) (p : PoolId) (f : Pool → Pool) : (m.modPool p f).pools = Vec.upd m.pools p f := rfl
@[simp] theorem Mach.modPwr_pwr (m : Mach) (f : Pwr → Pwr) : (m.modPwr f).pwr = f m.pwr := rfl
@[simp] theorem Mach.modMgmt_mgmt (m : Mach) (f : Mgmt → Mgmt) : (m.modMgmt f).mgmt = f m.mgmt := rfl
@[simp] theorem Mach.modMem_mem (m : Mach) (f : MemSys → MemSys) : (m.modMem f).mem = f m.mem := rfl
@[simp] theorem Mach.modNet_net (m : Mach) (f : Net → Net) : (m.modNet f).net = f m.net := rfl
@[simp] theorem Mach.modBundle_bundles (m : Mach) (b : BundleId) (f : Bundle → Bundle) :
    (m.modBundle b f).net.bundles = Vec.upd m.net.bundles b f := rfl
@[simp] theorem Mach.modFold_folds (m : Mach) (k : FoldSlot) (f : Fold → Fold) :
    (m.modFold k f).net.folds = Vec.upd m.net.folds k f := rfl
@[simp] theorem Mach.modQp_qp (m : Mach) (c : CtxId) (q : QpNo) (f : Qp → Qp) :
    ((m.modQp c q f).ctxs[c]).qps[q] = f ((m.ctxs[c]).qps[q]) := by
  simp [Mach.modQp]

/-! ### The fields that an update leaves alone -/

@[simp] theorem Mach.modCtx_frame (m : Mach) (c : CtxId) (f : Ctx → Ctx) :
    (m.modCtx c f).grade = m.grade ∧ (m.modCtx c f).now = m.now ∧ (m.modCtx c f).freeCtr = m.freeCtr ∧
    (m.modCtx c f).out = m.out ∧ (m.modCtx c f).dict = m.dict ∧ (m.modCtx c f).islands = m.islands ∧
    (m.modCtx c f).netState = m.netState ∧ (m.modCtx c f).counters = m.counters ∧
    (m.modCtx c f).sensors = m.sensors ∧ (m.modCtx c f).log = m.log ∧ (m.modCtx c f).mgmt = m.mgmt ∧
    (m.modCtx c f).pwr = m.pwr ∧ (m.modCtx c f).mem = m.mem ∧ (m.modCtx c f).spad = m.spad ∧
    (m.modCtx c f).dram = m.dram ∧ (m.modCtx c f).pools = m.pools ∧ (m.modCtx c f).mv = m.mv ∧
    (m.modCtx c f).arrays = m.arrays ∧ (m.modCtx c f).takeups = m.takeups ∧ (m.modCtx c f).vecs = m.vecs ∧
    (m.modCtx c f).audits = m.audits ∧ (m.modCtx c f).lastLoom = m.lastLoom ∧ (m.modCtx c f).active = m.active ∧
    (m.modCtx c f).inactive = m.inactive ∧ (m.modCtx c f).lastDispatch = m.lastDispatch ∧
    (m.modCtx c f).lastVec = m.lastVec ∧ (m.modCtx c f).goose = m.goose ∧ (m.modCtx c f).links = m.links ∧
    (m.modCtx c f).net = m.net ∧ (m.modCtx c f).host = m.host ∧ (m.modCtx c f).shut = m.shut ∧
    (m.modCtx c f).drover = m.drover ∧ (m.modCtx c f).fw = m.fw :=
  by repeat (first | constructor | rfl)

@[simp] theorem Mach.modIsland_frame (m : Mach) (i : IslandId) (f : Island → Island) :
    (m.modIsland i f).grade = m.grade ∧ (m.modIsland i f).now = m.now ∧ (m.modIsland i f).freeCtr = m.freeCtr ∧
    (m.modIsland i f).out = m.out ∧ (m.modIsland i f).dict = m.dict ∧ (m.modIsland i f).netState = m.netState ∧
    (m.modIsland i f).counters = m.counters ∧ (m.modIsland i f).sensors = m.sensors ∧ (m.modIsland i f).log = m.log ∧
    (m.modIsland i f).mgmt = m.mgmt ∧ (m.modIsland i f).pwr = m.pwr ∧ (m.modIsland i f).mem = m.mem ∧
    (m.modIsland i f).spad = m.spad ∧ (m.modIsland i f).dram = m.dram ∧ (m.modIsland i f).pools = m.pools ∧
    (m.modIsland i f).ctxs = m.ctxs ∧ (m.modIsland i f).mv = m.mv ∧ (m.modIsland i f).arrays = m.arrays ∧
    (m.modIsland i f).takeups = m.takeups ∧ (m.modIsland i f).vecs = m.vecs ∧ (m.modIsland i f).audits = m.audits ∧
    (m.modIsland i f).lastLoom = m.lastLoom ∧ (m.modIsland i f).active = m.active ∧
    (m.modIsland i f).inactive = m.inactive ∧ (m.modIsland i f).lastDispatch = m.lastDispatch ∧
    (m.modIsland i f).lastVec = m.lastVec ∧ (m.modIsland i f).goose = m.goose ∧ (m.modIsland i f).links = m.links ∧
    (m.modIsland i f).net = m.net ∧ (m.modIsland i f).host = m.host ∧ (m.modIsland i f).shut = m.shut ∧
    (m.modIsland i f).drover = m.drover ∧ (m.modIsland i f).fw = m.fw :=
  by repeat (first | constructor | rfl)

@[simp] theorem Mach.modLink_frame (m : Mach) (l : LinkId) (f : Link → Link) :
    (m.modLink l f).grade = m.grade ∧ (m.modLink l f).now = m.now ∧ (m.modLink l f).freeCtr = m.freeCtr ∧
    (m.modLink l f).out = m.out ∧ (m.modLink l f).dict = m.dict ∧ (m.modLink l f).islands = m.islands ∧
    (m.modLink l f).netState = m.netState ∧ (m.modLink l f).counters = m.counters ∧
    (m.modLink l f).sensors = m.sensors ∧ (m.modLink l f).log = m.log ∧ (m.modLink l f).mgmt = m.mgmt ∧
    (m.modLink l f).pwr = m.pwr ∧ (m.modLink l f).mem = m.mem ∧ (m.modLink l f).spad = m.spad ∧
    (m.modLink l f).dram = m.dram ∧ (m.modLink l f).pools = m.pools ∧ (m.modLink l f).ctxs = m.ctxs ∧
    (m.modLink l f).mv = m.mv ∧ (m.modLink l f).arrays = m.arrays ∧ (m.modLink l f).takeups = m.takeups ∧
    (m.modLink l f).vecs = m.vecs ∧ (m.modLink l f).audits = m.audits ∧ (m.modLink l f).lastLoom = m.lastLoom ∧
    (m.modLink l f).active = m.active ∧ (m.modLink l f).inactive = m.inactive ∧
    (m.modLink l f).lastDispatch = m.lastDispatch ∧ (m.modLink l f).lastVec = m.lastVec ∧
    (m.modLink l f).goose = m.goose ∧ (m.modLink l f).net = m.net ∧ (m.modLink l f).host = m.host ∧
    (m.modLink l f).shut = m.shut ∧ (m.modLink l f).drover = m.drover ∧ (m.modLink l f).fw = m.fw :=
  by repeat (first | constructor | rfl)

@[simp] theorem Mach.modBundle_frame (m : Mach) (b : BundleId) (f : Bundle → Bundle) :
    (m.modBundle b f).grade = m.grade ∧ (m.modBundle b f).now = m.now ∧ (m.modBundle b f).freeCtr = m.freeCtr ∧
    (m.modBundle b f).out = m.out ∧ (m.modBundle b f).dict = m.dict ∧ (m.modBundle b f).islands = m.islands ∧
    (m.modBundle b f).netState = m.netState ∧ (m.modBundle b f).counters = m.counters ∧
    (m.modBundle b f).sensors = m.sensors ∧ (m.modBundle b f).log = m.log ∧ (m.modBundle b f).mgmt = m.mgmt ∧
    (m.modBundle b f).pwr = m.pwr ∧ (m.modBundle b f).mem = m.mem ∧ (m.modBundle b f).spad = m.spad ∧
    (m.modBundle b f).dram = m.dram ∧ (m.modBundle b f).pools = m.pools ∧ (m.modBundle b f).ctxs = m.ctxs ∧
    (m.modBundle b f).mv = m.mv ∧ (m.modBundle b f).arrays = m.arrays ∧ (m.modBundle b f).takeups = m.takeups ∧
    (m.modBundle b f).vecs = m.vecs ∧ (m.modBundle b f).audits = m.audits ∧ (m.modBundle b f).lastLoom = m.lastLoom ∧
    (m.modBundle b f).active = m.active ∧ (m.modBundle b f).inactive = m.inactive ∧
    (m.modBundle b f).lastDispatch = m.lastDispatch ∧ (m.modBundle b f).lastVec = m.lastVec ∧
    (m.modBundle b f).goose = m.goose ∧ (m.modBundle b f).links = m.links ∧ (m.modBundle b f).host = m.host ∧
    (m.modBundle b f).shut = m.shut ∧ (m.modBundle b f).drover = m.drover ∧ (m.modBundle b f).fw = m.fw :=
  by repeat (first | constructor | rfl)

@[simp] theorem Mach.modFold_frame (m : Mach) (k : FoldSlot) (f : Fold → Fold) :
    (m.modFold k f).grade = m.grade ∧ (m.modFold k f).now = m.now ∧ (m.modFold k f).freeCtr = m.freeCtr ∧
    (m.modFold k f).out = m.out ∧ (m.modFold k f).dict = m.dict ∧ (m.modFold k f).islands = m.islands ∧
    (m.modFold k f).netState = m.netState ∧ (m.modFold k f).counters = m.counters ∧
    (m.modFold k f).sensors = m.sensors ∧ (m.modFold k f).log = m.log ∧ (m.modFold k f).mgmt = m.mgmt ∧
    (m.modFold k f).pwr = m.pwr ∧ (m.modFold k f).mem = m.mem ∧ (m.modFold k f).spad = m.spad ∧
    (m.modFold k f).dram = m.dram ∧ (m.modFold k f).pools = m.pools ∧ (m.modFold k f).ctxs = m.ctxs ∧
    (m.modFold k f).mv = m.mv ∧ (m.modFold k f).arrays = m.arrays ∧ (m.modFold k f).takeups = m.takeups ∧
    (m.modFold k f).vecs = m.vecs ∧ (m.modFold k f).audits = m.audits ∧ (m.modFold k f).lastLoom = m.lastLoom ∧
    (m.modFold k f).active = m.active ∧ (m.modFold k f).inactive = m.inactive ∧
    (m.modFold k f).lastDispatch = m.lastDispatch ∧ (m.modFold k f).lastVec = m.lastVec ∧
    (m.modFold k f).goose = m.goose ∧ (m.modFold k f).links = m.links ∧ (m.modFold k f).host = m.host ∧
    (m.modFold k f).shut = m.shut ∧ (m.modFold k f).drover = m.drover ∧ (m.modFold k f).fw = m.fw :=
  by repeat (first | constructor | rfl)

@[simp] theorem Mach.modPool_frame (m : Mach) (p : PoolId) (f : Pool → Pool) :
    (m.modPool p f).grade = m.grade ∧ (m.modPool p f).now = m.now ∧ (m.modPool p f).freeCtr = m.freeCtr ∧
    (m.modPool p f).out = m.out ∧ (m.modPool p f).dict = m.dict ∧ (m.modPool p f).islands = m.islands ∧
    (m.modPool p f).netState = m.netState ∧ (m.modPool p f).counters = m.counters ∧
    (m.modPool p f).sensors = m.sensors ∧ (m.modPool p f).log = m.log ∧ (m.modPool p f).mgmt = m.mgmt ∧
    (m.modPool p f).pwr = m.pwr ∧ (m.modPool p f).mem = m.mem ∧ (m.modPool p f).spad = m.spad ∧
    (m.modPool p f).dram = m.dram ∧ (m.modPool p f).ctxs = m.ctxs ∧ (m.modPool p f).mv = m.mv ∧
    (m.modPool p f).arrays = m.arrays ∧ (m.modPool p f).takeups = m.takeups ∧ (m.modPool p f).vecs = m.vecs ∧
    (m.modPool p f).audits = m.audits ∧ (m.modPool p f).lastLoom = m.lastLoom ∧ (m.modPool p f).active = m.active ∧
    (m.modPool p f).inactive = m.inactive ∧ (m.modPool p f).lastDispatch = m.lastDispatch ∧
    (m.modPool p f).lastVec = m.lastVec ∧ (m.modPool p f).goose = m.goose ∧ (m.modPool p f).links = m.links ∧
    (m.modPool p f).net = m.net ∧ (m.modPool p f).host = m.host ∧ (m.modPool p f).shut = m.shut ∧
    (m.modPool p f).drover = m.drover ∧ (m.modPool p f).fw = m.fw :=
  by repeat (first | constructor | rfl)

@[simp] theorem Mach.modPwr_frame (m : Mach) (f : Pwr → Pwr) :
    (m.modPwr f).grade = m.grade ∧ (m.modPwr f).now = m.now ∧ (m.modPwr f).freeCtr = m.freeCtr ∧
    (m.modPwr f).out = m.out ∧ (m.modPwr f).dict = m.dict ∧ (m.modPwr f).islands = m.islands ∧
    (m.modPwr f).netState = m.netState ∧ (m.modPwr f).counters = m.counters ∧ (m.modPwr f).sensors = m.sensors ∧
    (m.modPwr f).log = m.log ∧ (m.modPwr f).mgmt = m.mgmt ∧ (m.modPwr f).mem = m.mem ∧ (m.modPwr f).spad = m.spad ∧
    (m.modPwr f).dram = m.dram ∧ (m.modPwr f).pools = m.pools ∧ (m.modPwr f).ctxs = m.ctxs ∧ (m.modPwr f).mv = m.mv ∧
    (m.modPwr f).arrays = m.arrays ∧ (m.modPwr f).takeups = m.takeups ∧ (m.modPwr f).vecs = m.vecs ∧
    (m.modPwr f).audits = m.audits ∧ (m.modPwr f).lastLoom = m.lastLoom ∧ (m.modPwr f).active = m.active ∧
    (m.modPwr f).inactive = m.inactive ∧ (m.modPwr f).lastDispatch = m.lastDispatch ∧
    (m.modPwr f).lastVec = m.lastVec ∧ (m.modPwr f).goose = m.goose ∧ (m.modPwr f).links = m.links ∧
    (m.modPwr f).net = m.net ∧ (m.modPwr f).host = m.host ∧ (m.modPwr f).shut = m.shut ∧
    (m.modPwr f).drover = m.drover ∧ (m.modPwr f).fw = m.fw :=
  by repeat (first | constructor | rfl)

@[simp] theorem Mach.modMgmt_frame (m : Mach) (f : Mgmt → Mgmt) :
    (m.modMgmt f).grade = m.grade ∧ (m.modMgmt f).now = m.now ∧ (m.modMgmt f).freeCtr = m.freeCtr ∧
    (m.modMgmt f).out = m.out ∧ (m.modMgmt f).dict = m.dict ∧ (m.modMgmt f).islands = m.islands ∧
    (m.modMgmt f).netState = m.netState ∧ (m.modMgmt f).counters = m.counters ∧ (m.modMgmt f).sensors = m.sensors ∧
    (m.modMgmt f).log = m.log ∧ (m.modMgmt f).pwr = m.pwr ∧ (m.modMgmt f).mem = m.mem ∧ (m.modMgmt f).spad = m.spad ∧
    (m.modMgmt f).dram = m.dram ∧ (m.modMgmt f).pools = m.pools ∧ (m.modMgmt f).ctxs = m.ctxs ∧
    (m.modMgmt f).mv = m.mv ∧ (m.modMgmt f).arrays = m.arrays ∧ (m.modMgmt f).takeups = m.takeups ∧
    (m.modMgmt f).vecs = m.vecs ∧ (m.modMgmt f).audits = m.audits ∧ (m.modMgmt f).lastLoom = m.lastLoom ∧
    (m.modMgmt f).active = m.active ∧ (m.modMgmt f).inactive = m.inactive ∧
    (m.modMgmt f).lastDispatch = m.lastDispatch ∧ (m.modMgmt f).lastVec = m.lastVec ∧ (m.modMgmt f).goose = m.goose ∧
    (m.modMgmt f).links = m.links ∧ (m.modMgmt f).net = m.net ∧ (m.modMgmt f).host = m.host ∧
    (m.modMgmt f).shut = m.shut ∧ (m.modMgmt f).drover = m.drover ∧ (m.modMgmt f).fw = m.fw :=
  by repeat (first | constructor | rfl)

@[simp] theorem Mach.modMem_frame (m : Mach) (f : MemSys → MemSys) :
    (m.modMem f).grade = m.grade ∧ (m.modMem f).now = m.now ∧ (m.modMem f).freeCtr = m.freeCtr ∧
    (m.modMem f).out = m.out ∧ (m.modMem f).dict = m.dict ∧ (m.modMem f).islands = m.islands ∧
    (m.modMem f).netState = m.netState ∧ (m.modMem f).counters = m.counters ∧ (m.modMem f).sensors = m.sensors ∧
    (m.modMem f).log = m.log ∧ (m.modMem f).mgmt = m.mgmt ∧ (m.modMem f).pwr = m.pwr ∧ (m.modMem f).spad = m.spad ∧
    (m.modMem f).dram = m.dram ∧ (m.modMem f).pools = m.pools ∧ (m.modMem f).ctxs = m.ctxs ∧ (m.modMem f).mv = m.mv ∧
    (m.modMem f).arrays = m.arrays ∧ (m.modMem f).takeups = m.takeups ∧ (m.modMem f).vecs = m.vecs ∧
    (m.modMem f).audits = m.audits ∧ (m.modMem f).lastLoom = m.lastLoom ∧ (m.modMem f).active = m.active ∧
    (m.modMem f).inactive = m.inactive ∧ (m.modMem f).lastDispatch = m.lastDispatch ∧
    (m.modMem f).lastVec = m.lastVec ∧ (m.modMem f).goose = m.goose ∧ (m.modMem f).links = m.links ∧
    (m.modMem f).net = m.net ∧ (m.modMem f).host = m.host ∧ (m.modMem f).shut = m.shut ∧
    (m.modMem f).drover = m.drover ∧ (m.modMem f).fw = m.fw :=
  by repeat (first | constructor | rfl)

@[simp] theorem Mach.modNet_frame (m : Mach) (f : Net → Net) :
    (m.modNet f).grade = m.grade ∧ (m.modNet f).now = m.now ∧ (m.modNet f).freeCtr = m.freeCtr ∧
    (m.modNet f).out = m.out ∧ (m.modNet f).dict = m.dict ∧ (m.modNet f).islands = m.islands ∧
    (m.modNet f).netState = m.netState ∧ (m.modNet f).counters = m.counters ∧ (m.modNet f).sensors = m.sensors ∧
    (m.modNet f).log = m.log ∧ (m.modNet f).mgmt = m.mgmt ∧ (m.modNet f).pwr = m.pwr ∧ (m.modNet f).mem = m.mem ∧
    (m.modNet f).spad = m.spad ∧ (m.modNet f).dram = m.dram ∧ (m.modNet f).pools = m.pools ∧
    (m.modNet f).ctxs = m.ctxs ∧ (m.modNet f).mv = m.mv ∧ (m.modNet f).arrays = m.arrays ∧
    (m.modNet f).takeups = m.takeups ∧ (m.modNet f).vecs = m.vecs ∧ (m.modNet f).audits = m.audits ∧
    (m.modNet f).lastLoom = m.lastLoom ∧ (m.modNet f).active = m.active ∧ (m.modNet f).inactive = m.inactive ∧
    (m.modNet f).lastDispatch = m.lastDispatch ∧ (m.modNet f).lastVec = m.lastVec ∧ (m.modNet f).goose = m.goose ∧
    (m.modNet f).links = m.links ∧ (m.modNet f).host = m.host ∧ (m.modNet f).shut = m.shut ∧
    (m.modNet f).drover = m.drover ∧ (m.modNet f).fw = m.fw :=
  by repeat (first | constructor | rfl)

@[simp] theorem Mach.modQp_frame (m : Mach) (c : CtxId) (q : QpNo) (f : Qp → Qp) :
    (m.modQp c q f).grade = m.grade ∧ (m.modQp c q f).now = m.now ∧ (m.modQp c q f).freeCtr = m.freeCtr ∧
    (m.modQp c q f).out = m.out ∧ (m.modQp c q f).dict = m.dict ∧ (m.modQp c q f).islands = m.islands ∧
    (m.modQp c q f).netState = m.netState ∧ (m.modQp c q f).counters = m.counters ∧
    (m.modQp c q f).sensors = m.sensors ∧ (m.modQp c q f).log = m.log ∧ (m.modQp c q f).mgmt = m.mgmt ∧
    (m.modQp c q f).pwr = m.pwr ∧ (m.modQp c q f).mem = m.mem ∧ (m.modQp c q f).spad = m.spad ∧
    (m.modQp c q f).dram = m.dram ∧ (m.modQp c q f).pools = m.pools ∧ (m.modQp c q f).mv = m.mv ∧
    (m.modQp c q f).arrays = m.arrays ∧ (m.modQp c q f).takeups = m.takeups ∧ (m.modQp c q f).vecs = m.vecs ∧
    (m.modQp c q f).audits = m.audits ∧ (m.modQp c q f).lastLoom = m.lastLoom ∧ (m.modQp c q f).active = m.active ∧
    (m.modQp c q f).inactive = m.inactive ∧ (m.modQp c q f).lastDispatch = m.lastDispatch ∧
    (m.modQp c q f).lastVec = m.lastVec ∧ (m.modQp c q f).goose = m.goose ∧ (m.modQp c q f).links = m.links ∧
    (m.modQp c q f).net = m.net ∧ (m.modQp c q f).host = m.host ∧ (m.modQp c q f).shut = m.shut ∧
    (m.modQp c q f).drover = m.drover ∧ (m.modQp c q f).fw = m.fw :=
  by repeat (first | constructor | rfl)

@[simp] theorem Mach.send_frame (m : Mach) (o : Out) :
    (m.send o).grade = m.grade ∧ (m.send o).now = m.now ∧ (m.send o).freeCtr = m.freeCtr ∧ (m.send o).dict = m.dict ∧
    (m.send o).islands = m.islands ∧ (m.send o).netState = m.netState ∧ (m.send o).counters = m.counters ∧
    (m.send o).sensors = m.sensors ∧ (m.send o).log = m.log ∧ (m.send o).mgmt = m.mgmt ∧ (m.send o).pwr = m.pwr ∧
    (m.send o).mem = m.mem ∧ (m.send o).spad = m.spad ∧ (m.send o).dram = m.dram ∧ (m.send o).pools = m.pools ∧
    (m.send o).ctxs = m.ctxs ∧ (m.send o).mv = m.mv ∧ (m.send o).arrays = m.arrays ∧ (m.send o).takeups = m.takeups ∧
    (m.send o).vecs = m.vecs ∧ (m.send o).audits = m.audits ∧ (m.send o).lastLoom = m.lastLoom ∧
    (m.send o).active = m.active ∧ (m.send o).inactive = m.inactive ∧ (m.send o).lastDispatch = m.lastDispatch ∧
    (m.send o).lastVec = m.lastVec ∧ (m.send o).goose = m.goose ∧ (m.send o).links = m.links ∧
    (m.send o).net = m.net ∧ (m.send o).shut = m.shut ∧ (m.send o).drover = m.drover ∧ (m.send o).fw = m.fw :=
  by
  unfold Mach.send; split
  · simp
  · split <;> simp

@[simp] theorem Mach.drew_frame (m : Mach) :
    (m.drew).grade = m.grade ∧ (m.drew).now = m.now ∧ (m.drew).out = m.out ∧ (m.drew).dict = m.dict ∧
    (m.drew).islands = m.islands ∧ (m.drew).netState = m.netState ∧ (m.drew).counters = m.counters ∧
    (m.drew).sensors = m.sensors ∧ (m.drew).log = m.log ∧ (m.drew).mgmt = m.mgmt ∧ (m.drew).pwr = m.pwr ∧
    (m.drew).mem = m.mem ∧ (m.drew).spad = m.spad ∧ (m.drew).dram = m.dram ∧ (m.drew).pools = m.pools ∧
    (m.drew).ctxs = m.ctxs ∧ (m.drew).mv = m.mv ∧ (m.drew).arrays = m.arrays ∧ (m.drew).takeups = m.takeups ∧
    (m.drew).vecs = m.vecs ∧ (m.drew).audits = m.audits ∧ (m.drew).lastLoom = m.lastLoom ∧
    (m.drew).active = m.active ∧ (m.drew).inactive = m.inactive ∧ (m.drew).lastDispatch = m.lastDispatch ∧
    (m.drew).lastVec = m.lastVec ∧ (m.drew).goose = m.goose ∧ (m.drew).links = m.links ∧ (m.drew).net = m.net ∧
    (m.drew).host = m.host ∧ (m.drew).shut = m.shut ∧ (m.drew).drover = m.drover ∧ (m.drew).fw = m.fw :=
  by repeat (first | constructor | rfl)

@[simp] theorem Mach.spadWrite_frame (m : Mach) (a : Nat) (b : Bytes) :
    (m.spadWrite a b).grade = m.grade ∧ (m.spadWrite a b).now = m.now ∧ (m.spadWrite a b).freeCtr = m.freeCtr ∧
    (m.spadWrite a b).out = m.out ∧ (m.spadWrite a b).dict = m.dict ∧ (m.spadWrite a b).islands = m.islands ∧
    (m.spadWrite a b).netState = m.netState ∧ (m.spadWrite a b).counters = m.counters ∧
    (m.spadWrite a b).sensors = m.sensors ∧ (m.spadWrite a b).log = m.log ∧ (m.spadWrite a b).mgmt = m.mgmt ∧
    (m.spadWrite a b).pwr = m.pwr ∧ (m.spadWrite a b).dram = m.dram ∧ (m.spadWrite a b).pools = m.pools ∧
    (m.spadWrite a b).ctxs = m.ctxs ∧ (m.spadWrite a b).mv = m.mv ∧ (m.spadWrite a b).arrays = m.arrays ∧
    (m.spadWrite a b).takeups = m.takeups ∧ (m.spadWrite a b).vecs = m.vecs ∧ (m.spadWrite a b).audits = m.audits ∧
    (m.spadWrite a b).lastLoom = m.lastLoom ∧ (m.spadWrite a b).active = m.active ∧
    (m.spadWrite a b).inactive = m.inactive ∧ (m.spadWrite a b).lastDispatch = m.lastDispatch ∧
    (m.spadWrite a b).lastVec = m.lastVec ∧ (m.spadWrite a b).goose = m.goose ∧ (m.spadWrite a b).links = m.links ∧
    (m.spadWrite a b).net = m.net ∧ (m.spadWrite a b).host = m.host ∧ (m.spadWrite a b).shut = m.shut ∧
    (m.spadWrite a b).drover = m.drover ∧ (m.spadWrite a b).fw = m.fw :=
  by repeat (first | constructor | rfl)

@[simp] theorem Mach.spadUndefine_frame (m : Mach) (a n : Nat) :
    (m.spadUndefine a n).grade = m.grade ∧ (m.spadUndefine a n).now = m.now ∧ (m.spadUndefine a n).out = m.out ∧
    (m.spadUndefine a n).dict = m.dict ∧ (m.spadUndefine a n).islands = m.islands ∧
    (m.spadUndefine a n).netState = m.netState ∧ (m.spadUndefine a n).counters = m.counters ∧
    (m.spadUndefine a n).sensors = m.sensors ∧ (m.spadUndefine a n).log = m.log ∧
    (m.spadUndefine a n).mgmt = m.mgmt ∧ (m.spadUndefine a n).pwr = m.pwr ∧ (m.spadUndefine a n).dram = m.dram ∧
    (m.spadUndefine a n).pools = m.pools ∧ (m.spadUndefine a n).ctxs = m.ctxs ∧ (m.spadUndefine a n).mv = m.mv ∧
    (m.spadUndefine a n).arrays = m.arrays ∧ (m.spadUndefine a n).takeups = m.takeups ∧
    (m.spadUndefine a n).vecs = m.vecs ∧ (m.spadUndefine a n).audits = m.audits ∧
    (m.spadUndefine a n).lastLoom = m.lastLoom ∧ (m.spadUndefine a n).active = m.active ∧
    (m.spadUndefine a n).inactive = m.inactive ∧ (m.spadUndefine a n).lastDispatch = m.lastDispatch ∧
    (m.spadUndefine a n).lastVec = m.lastVec ∧ (m.spadUndefine a n).goose = m.goose ∧
    (m.spadUndefine a n).links = m.links ∧ (m.spadUndefine a n).net = m.net ∧ (m.spadUndefine a n).host = m.host ∧
    (m.spadUndefine a n).shut = m.shut ∧ (m.spadUndefine a n).drover = m.drover ∧ (m.spadUndefine a n).fw = m.fw :=
  by repeat (first | constructor | rfl)

@[simp] theorem Mach.dramPut_frame (m : Mach) (a : Nat) (b : Bytes) :
    (m.dramPut a b).grade = m.grade ∧ (m.dramPut a b).now = m.now ∧ (m.dramPut a b).freeCtr = m.freeCtr ∧
    (m.dramPut a b).out = m.out ∧ (m.dramPut a b).dict = m.dict ∧ (m.dramPut a b).islands = m.islands ∧
    (m.dramPut a b).netState = m.netState ∧ (m.dramPut a b).counters = m.counters ∧
    (m.dramPut a b).sensors = m.sensors ∧ (m.dramPut a b).log = m.log ∧ (m.dramPut a b).mgmt = m.mgmt ∧
    (m.dramPut a b).pwr = m.pwr ∧ (m.dramPut a b).spad = m.spad ∧ (m.dramPut a b).pools = m.pools ∧
    (m.dramPut a b).ctxs = m.ctxs ∧ (m.dramPut a b).mv = m.mv ∧ (m.dramPut a b).arrays = m.arrays ∧
    (m.dramPut a b).takeups = m.takeups ∧ (m.dramPut a b).vecs = m.vecs ∧ (m.dramPut a b).audits = m.audits ∧
    (m.dramPut a b).lastLoom = m.lastLoom ∧ (m.dramPut a b).active = m.active ∧
    (m.dramPut a b).inactive = m.inactive ∧ (m.dramPut a b).lastDispatch = m.lastDispatch ∧
    (m.dramPut a b).lastVec = m.lastVec ∧ (m.dramPut a b).goose = m.goose ∧ (m.dramPut a b).links = m.links ∧
    (m.dramPut a b).net = m.net ∧ (m.dramPut a b).host = m.host ∧ (m.dramPut a b).shut = m.shut ∧
    (m.dramPut a b).drover = m.drover ∧ (m.dramPut a b).fw = m.fw :=
  by repeat (first | constructor | rfl)

@[simp] theorem Mach.dramUndefine_frame (m : Mach) (a n : Nat) :
    (m.dramUndefine a n).grade = m.grade ∧ (m.dramUndefine a n).now = m.now ∧ (m.dramUndefine a n).out = m.out ∧
    (m.dramUndefine a n).dict = m.dict ∧ (m.dramUndefine a n).islands = m.islands ∧
    (m.dramUndefine a n).netState = m.netState ∧ (m.dramUndefine a n).counters = m.counters ∧
    (m.dramUndefine a n).sensors = m.sensors ∧ (m.dramUndefine a n).log = m.log ∧
    (m.dramUndefine a n).mgmt = m.mgmt ∧ (m.dramUndefine a n).pwr = m.pwr ∧ (m.dramUndefine a n).spad = m.spad ∧
    (m.dramUndefine a n).pools = m.pools ∧ (m.dramUndefine a n).ctxs = m.ctxs ∧ (m.dramUndefine a n).mv = m.mv ∧
    (m.dramUndefine a n).arrays = m.arrays ∧ (m.dramUndefine a n).takeups = m.takeups ∧
    (m.dramUndefine a n).vecs = m.vecs ∧ (m.dramUndefine a n).audits = m.audits ∧
    (m.dramUndefine a n).lastLoom = m.lastLoom ∧ (m.dramUndefine a n).active = m.active ∧
    (m.dramUndefine a n).inactive = m.inactive ∧ (m.dramUndefine a n).lastDispatch = m.lastDispatch ∧
    (m.dramUndefine a n).lastVec = m.lastVec ∧ (m.dramUndefine a n).goose = m.goose ∧
    (m.dramUndefine a n).links = m.links ∧ (m.dramUndefine a n).net = m.net ∧ (m.dramUndefine a n).host = m.host ∧
    (m.dramUndefine a n).shut = m.shut ∧ (m.dramUndefine a n).drover = m.drover ∧ (m.dramUndefine a n).fw = m.fw :=
  by repeat (first | constructor | rfl)

@[simp] theorem Mach.dramZero_frame (m : Mach) (a n : Nat) :
    (m.dramZero a n).grade = m.grade ∧ (m.dramZero a n).now = m.now ∧ (m.dramZero a n).freeCtr = m.freeCtr ∧
    (m.dramZero a n).out = m.out ∧ (m.dramZero a n).dict = m.dict ∧ (m.dramZero a n).islands = m.islands ∧
    (m.dramZero a n).netState = m.netState ∧ (m.dramZero a n).counters = m.counters ∧
    (m.dramZero a n).sensors = m.sensors ∧ (m.dramZero a n).log = m.log ∧ (m.dramZero a n).mgmt = m.mgmt ∧
    (m.dramZero a n).pwr = m.pwr ∧ (m.dramZero a n).spad = m.spad ∧ (m.dramZero a n).pools = m.pools ∧
    (m.dramZero a n).ctxs = m.ctxs ∧ (m.dramZero a n).mv = m.mv ∧ (m.dramZero a n).arrays = m.arrays ∧
    (m.dramZero a n).takeups = m.takeups ∧ (m.dramZero a n).vecs = m.vecs ∧ (m.dramZero a n).audits = m.audits ∧
    (m.dramZero a n).lastLoom = m.lastLoom ∧ (m.dramZero a n).active = m.active ∧
    (m.dramZero a n).inactive = m.inactive ∧ (m.dramZero a n).lastDispatch = m.lastDispatch ∧
    (m.dramZero a n).lastVec = m.lastVec ∧ (m.dramZero a n).goose = m.goose ∧ (m.dramZero a n).links = m.links ∧
    (m.dramZero a n).net = m.net ∧ (m.dramZero a n).host = m.host ∧ (m.dramZero a n).shut = m.shut ∧
    (m.dramZero a n).drover = m.drover ∧ (m.dramZero a n).fw = m.fw :=
  by repeat (first | constructor | rfl)

@[simp] theorem Mach.record_frame (m : Mach) (c : CtxId) (f : RecFields) (ts : Option Nat) :
    (m.record c f ts).grade = m.grade ∧ (m.record c f ts).now = m.now ∧ (m.record c f ts).freeCtr = m.freeCtr ∧
    (m.record c f ts).out = m.out ∧ (m.record c f ts).dict = m.dict ∧ (m.record c f ts).islands = m.islands ∧
    (m.record c f ts).netState = m.netState ∧ (m.record c f ts).counters = m.counters ∧
    (m.record c f ts).sensors = m.sensors ∧ (m.record c f ts).log = m.log ∧ (m.record c f ts).mgmt = m.mgmt ∧
    (m.record c f ts).pwr = m.pwr ∧ (m.record c f ts).mem = m.mem ∧ (m.record c f ts).spad = m.spad ∧
    (m.record c f ts).dram = m.dram ∧ (m.record c f ts).pools = m.pools ∧ (m.record c f ts).mv = m.mv ∧
    (m.record c f ts).arrays = m.arrays ∧ (m.record c f ts).takeups = m.takeups ∧ (m.record c f ts).vecs = m.vecs ∧
    (m.record c f ts).audits = m.audits ∧ (m.record c f ts).lastLoom = m.lastLoom ∧
    (m.record c f ts).active = m.active ∧ (m.record c f ts).inactive = m.inactive ∧
    (m.record c f ts).lastDispatch = m.lastDispatch ∧ (m.record c f ts).lastVec = m.lastVec ∧
    (m.record c f ts).goose = m.goose ∧ (m.record c f ts).links = m.links ∧ (m.record c f ts).net = m.net ∧
    (m.record c f ts).host = m.host ∧ (m.record c f ts).shut = m.shut ∧ (m.record c f ts).drover = m.drover ∧
    (m.record c f ts).fw = m.fw :=
  by repeat (first | constructor | rfl)

@[simp] theorem Mach.takeHead_frame (m : Mach) (c : CtxId) (e : Eng) :
    (m.takeHead c e).grade = m.grade ∧ (m.takeHead c e).now = m.now ∧ (m.takeHead c e).freeCtr = m.freeCtr ∧
    (m.takeHead c e).out = m.out ∧ (m.takeHead c e).dict = m.dict ∧ (m.takeHead c e).islands = m.islands ∧
    (m.takeHead c e).netState = m.netState ∧ (m.takeHead c e).counters = m.counters ∧
    (m.takeHead c e).sensors = m.sensors ∧ (m.takeHead c e).log = m.log ∧ (m.takeHead c e).mgmt = m.mgmt ∧
    (m.takeHead c e).pwr = m.pwr ∧ (m.takeHead c e).mem = m.mem ∧ (m.takeHead c e).spad = m.spad ∧
    (m.takeHead c e).dram = m.dram ∧ (m.takeHead c e).pools = m.pools ∧ (m.takeHead c e).mv = m.mv ∧
    (m.takeHead c e).arrays = m.arrays ∧ (m.takeHead c e).takeups = m.takeups ∧ (m.takeHead c e).vecs = m.vecs ∧
    (m.takeHead c e).audits = m.audits ∧ (m.takeHead c e).lastLoom = m.lastLoom ∧
    (m.takeHead c e).active = m.active ∧ (m.takeHead c e).inactive = m.inactive ∧
    (m.takeHead c e).lastDispatch = m.lastDispatch ∧ (m.takeHead c e).lastVec = m.lastVec ∧
    (m.takeHead c e).goose = m.goose ∧ (m.takeHead c e).links = m.links ∧ (m.takeHead c e).net = m.net ∧
    (m.takeHead c e).host = m.host ∧ (m.takeHead c e).shut = m.shut ∧ (m.takeHead c e).drover = m.drover ∧
    (m.takeHead c e).fw = m.fw :=
  by repeat (first | constructor | rfl)

@[simp] theorem Mach.setObj_frame (m : Mach) (idx sub : Nat) (v : Val) :
    (m.setObj idx sub v).grade = m.grade ∧ (m.setObj idx sub v).now = m.now ∧
    (m.setObj idx sub v).freeCtr = m.freeCtr ∧ (m.setObj idx sub v).out = m.out ∧
    (m.setObj idx sub v).islands = m.islands ∧ (m.setObj idx sub v).netState = m.netState ∧
    (m.setObj idx sub v).counters = m.counters ∧ (m.setObj idx sub v).sensors = m.sensors ∧
    (m.setObj idx sub v).log = m.log ∧ (m.setObj idx sub v).mgmt = m.mgmt ∧ (m.setObj idx sub v).pwr = m.pwr ∧
    (m.setObj idx sub v).mem = m.mem ∧ (m.setObj idx sub v).spad = m.spad ∧ (m.setObj idx sub v).dram = m.dram ∧
    (m.setObj idx sub v).pools = m.pools ∧ (m.setObj idx sub v).ctxs = m.ctxs ∧ (m.setObj idx sub v).mv = m.mv ∧
    (m.setObj idx sub v).arrays = m.arrays ∧ (m.setObj idx sub v).takeups = m.takeups ∧
    (m.setObj idx sub v).vecs = m.vecs ∧ (m.setObj idx sub v).audits = m.audits ∧
    (m.setObj idx sub v).lastLoom = m.lastLoom ∧ (m.setObj idx sub v).active = m.active ∧
    (m.setObj idx sub v).inactive = m.inactive ∧ (m.setObj idx sub v).lastDispatch = m.lastDispatch ∧
    (m.setObj idx sub v).lastVec = m.lastVec ∧ (m.setObj idx sub v).goose = m.goose ∧
    (m.setObj idx sub v).links = m.links ∧ (m.setObj idx sub v).net = m.net ∧ (m.setObj idx sub v).host = m.host ∧
    (m.setObj idx sub v).shut = m.shut ∧ (m.setObj idx sub v).drover = m.drover ∧ (m.setObj idx sub v).fw = m.fw :=
  by
  unfold Mach.setObj; dsimp only; split <;> simp

@[simp] theorem Mach.count_frame (m : Mach) (o : Occ) (n : Nat) :
    (m.count o n).grade = m.grade ∧ (m.count o n).now = m.now ∧ (m.count o n).freeCtr = m.freeCtr ∧
    (m.count o n).out = m.out ∧ (m.count o n).dict = m.dict ∧ (m.count o n).islands = m.islands ∧
    (m.count o n).netState = m.netState ∧ (m.count o n).sensors = m.sensors ∧ (m.count o n).log = m.log ∧
    (m.count o n).mgmt = m.mgmt ∧ (m.count o n).pwr = m.pwr ∧ (m.count o n).mem = m.mem ∧
    (m.count o n).spad = m.spad ∧ (m.count o n).dram = m.dram ∧ (m.count o n).pools = m.pools ∧
    (m.count o n).ctxs = m.ctxs ∧ (m.count o n).mv = m.mv ∧ (m.count o n).arrays = m.arrays ∧
    (m.count o n).takeups = m.takeups ∧ (m.count o n).vecs = m.vecs ∧ (m.count o n).audits = m.audits ∧
    (m.count o n).lastLoom = m.lastLoom ∧ (m.count o n).active = m.active ∧ (m.count o n).inactive = m.inactive ∧
    (m.count o n).lastDispatch = m.lastDispatch ∧ (m.count o n).lastVec = m.lastVec ∧ (m.count o n).goose = m.goose ∧
    (m.count o n).links = m.links ∧ (m.count o n).net = m.net ∧ (m.count o n).host = m.host ∧
    (m.count o n).shut = m.shut ∧ (m.count o n).drover = m.drover ∧ (m.count o n).fw = m.fw :=
  by
  unfold Mach.count; split <;> simp

@[simp] theorem Mach.cnt_frame (m : Mach) (src isl : Nat) (c : Option CtxId) (n : Nat) :
    (m.cnt src isl c n).grade = m.grade ∧ (m.cnt src isl c n).now = m.now ∧ (m.cnt src isl c n).freeCtr = m.freeCtr ∧
    (m.cnt src isl c n).out = m.out ∧ (m.cnt src isl c n).dict = m.dict ∧ (m.cnt src isl c n).islands = m.islands ∧
    (m.cnt src isl c n).netState = m.netState ∧ (m.cnt src isl c n).sensors = m.sensors ∧
    (m.cnt src isl c n).log = m.log ∧ (m.cnt src isl c n).mgmt = m.mgmt ∧ (m.cnt src isl c n).pwr = m.pwr ∧
    (m.cnt src isl c n).mem = m.mem ∧ (m.cnt src isl c n).spad = m.spad ∧ (m.cnt src isl c n).dram = m.dram ∧
    (m.cnt src isl c n).pools = m.pools ∧ (m.cnt src isl c n).ctxs = m.ctxs ∧ (m.cnt src isl c n).mv = m.mv ∧
    (m.cnt src isl c n).arrays = m.arrays ∧ (m.cnt src isl c n).takeups = m.takeups ∧
    (m.cnt src isl c n).vecs = m.vecs ∧ (m.cnt src isl c n).audits = m.audits ∧
    (m.cnt src isl c n).lastLoom = m.lastLoom ∧ (m.cnt src isl c n).active = m.active ∧
    (m.cnt src isl c n).inactive = m.inactive ∧ (m.cnt src isl c n).lastDispatch = m.lastDispatch ∧
    (m.cnt src isl c n).lastVec = m.lastVec ∧ (m.cnt src isl c n).goose = m.goose ∧
    (m.cnt src isl c n).links = m.links ∧ (m.cnt src isl c n).net = m.net ∧ (m.cnt src isl c n).host = m.host ∧
    (m.cnt src isl c n).shut = m.shut ∧ (m.cnt src isl c n).drover = m.drover ∧ (m.cnt src isl c n).fw = m.fw :=
  by
  simp [Mach.cnt]

@[simp] theorem Mach.logAdd_frame (m : Mach) (e v d : Nat) (b : Bytes) (st : Nat) (c : Option CtxId) (i src : Nat) :
    (m.logAdd e v d b st c i src).grade = m.grade ∧ (m.logAdd e v d b st c i src).now = m.now ∧
    (m.logAdd e v d b st c i src).freeCtr = m.freeCtr ∧ (m.logAdd e v d b st c i src).out = m.out ∧
    (m.logAdd e v d b st c i src).dict = m.dict ∧ (m.logAdd e v d b st c i src).islands = m.islands ∧
    (m.logAdd e v d b st c i src).netState = m.netState ∧ (m.logAdd e v d b st c i src).sensors = m.sensors ∧
    (m.logAdd e v d b st c i src).mgmt = m.mgmt ∧ (m.logAdd e v d b st c i src).pwr = m.pwr ∧
    (m.logAdd e v d b st c i src).mem = m.mem ∧ (m.logAdd e v d b st c i src).spad = m.spad ∧
    (m.logAdd e v d b st c i src).dram = m.dram ∧ (m.logAdd e v d b st c i src).pools = m.pools ∧
    (m.logAdd e v d b st c i src).ctxs = m.ctxs ∧ (m.logAdd e v d b st c i src).mv = m.mv ∧
    (m.logAdd e v d b st c i src).arrays = m.arrays ∧ (m.logAdd e v d b st c i src).takeups = m.takeups ∧
    (m.logAdd e v d b st c i src).vecs = m.vecs ∧ (m.logAdd e v d b st c i src).audits = m.audits ∧
    (m.logAdd e v d b st c i src).lastLoom = m.lastLoom ∧ (m.logAdd e v d b st c i src).active = m.active ∧
    (m.logAdd e v d b st c i src).inactive = m.inactive ∧
    (m.logAdd e v d b st c i src).lastDispatch = m.lastDispatch ∧ (m.logAdd e v d b st c i src).lastVec = m.lastVec ∧
    (m.logAdd e v d b st c i src).goose = m.goose ∧ (m.logAdd e v d b st c i src).links = m.links ∧
    (m.logAdd e v d b st c i src).net = m.net ∧ (m.logAdd e v d b st c i src).host = m.host ∧
    (m.logAdd e v d b st c i src).shut = m.shut ∧ (m.logAdd e v d b st c i src).drover = m.drover ∧
    (m.logAdd e v d b st c i src).fw = m.fw :=
  by
  unfold Mach.logAdd; dsimp only; repeat (first | (split <;> try simp) | simp)

@[simp] theorem Mach.corrected_frame (m : Mach) (o : Occ) :
    (m.corrected o).grade = m.grade ∧ (m.corrected o).now = m.now ∧ (m.corrected o).freeCtr = m.freeCtr ∧
    (m.corrected o).out = m.out ∧ (m.corrected o).dict = m.dict ∧ (m.corrected o).islands = m.islands ∧
    (m.corrected o).netState = m.netState ∧ (m.corrected o).sensors = m.sensors ∧ (m.corrected o).mgmt = m.mgmt ∧
    (m.corrected o).pwr = m.pwr ∧ (m.corrected o).mem = m.mem ∧ (m.corrected o).spad = m.spad ∧
    (m.corrected o).dram = m.dram ∧ (m.corrected o).pools = m.pools ∧ (m.corrected o).ctxs = m.ctxs ∧
    (m.corrected o).mv = m.mv ∧ (m.corrected o).arrays = m.arrays ∧ (m.corrected o).takeups = m.takeups ∧
    (m.corrected o).vecs = m.vecs ∧ (m.corrected o).audits = m.audits ∧ (m.corrected o).lastLoom = m.lastLoom ∧
    (m.corrected o).active = m.active ∧ (m.corrected o).inactive = m.inactive ∧
    (m.corrected o).lastDispatch = m.lastDispatch ∧ (m.corrected o).lastVec = m.lastVec ∧
    (m.corrected o).goose = m.goose ∧ (m.corrected o).links = m.links ∧ (m.corrected o).net = m.net ∧
    (m.corrected o).host = m.host ∧ (m.corrected o).shut = m.shut ∧ (m.corrected o).drover = m.drover ∧
    (m.corrected o).fw = m.fw :=
  by
  unfold Mach.corrected; dsimp only; split <;> simp

@[simp] theorem Mach.emcy_frame (m : Mach) (e d v : Nat) (c : Option CtxId) (i src st : Nat) :
    (m.emcy e d v c i src st).grade = m.grade ∧ (m.emcy e d v c i src st).now = m.now ∧
    (m.emcy e d v c i src st).freeCtr = m.freeCtr ∧ (m.emcy e d v c i src st).out = m.out ∧
    (m.emcy e d v c i src st).dict = m.dict ∧ (m.emcy e d v c i src st).islands = m.islands ∧
    (m.emcy e d v c i src st).netState = m.netState ∧ (m.emcy e d v c i src st).sensors = m.sensors ∧
    (m.emcy e d v c i src st).pwr = m.pwr ∧ (m.emcy e d v c i src st).mem = m.mem ∧
    (m.emcy e d v c i src st).spad = m.spad ∧ (m.emcy e d v c i src st).dram = m.dram ∧
    (m.emcy e d v c i src st).pools = m.pools ∧ (m.emcy e d v c i src st).ctxs = m.ctxs ∧
    (m.emcy e d v c i src st).mv = m.mv ∧ (m.emcy e d v c i src st).arrays = m.arrays ∧
    (m.emcy e d v c i src st).takeups = m.takeups ∧ (m.emcy e d v c i src st).vecs = m.vecs ∧
    (m.emcy e d v c i src st).audits = m.audits ∧ (m.emcy e d v c i src st).lastLoom = m.lastLoom ∧
    (m.emcy e d v c i src st).active = m.active ∧ (m.emcy e d v c i src st).inactive = m.inactive ∧
    (m.emcy e d v c i src st).lastDispatch = m.lastDispatch ∧ (m.emcy e d v c i src st).lastVec = m.lastVec ∧
    (m.emcy e d v c i src st).goose = m.goose ∧ (m.emcy e d v c i src st).links = m.links ∧
    (m.emcy e d v c i src st).net = m.net ∧ (m.emcy e d v c i src st).host = m.host ∧
    (m.emcy e d v c i src st).shut = m.shut ∧ (m.emcy e d v c i src st).drover = m.drover ∧
    (m.emcy e d v c i src st).fw = m.fw :=
  by
  unfold Mach.emcy; dsimp only; split <;> simp

@[simp] theorem Mach.dramUe_frame (m : Mach) (u : Nat) (c : Option CtxId) :
    (m.dramUe u c).grade = m.grade ∧ (m.dramUe u c).now = m.now ∧ (m.dramUe u c).freeCtr = m.freeCtr ∧
    (m.dramUe u c).out = m.out ∧ (m.dramUe u c).dict = m.dict ∧ (m.dramUe u c).islands = m.islands ∧
    (m.dramUe u c).netState = m.netState ∧ (m.dramUe u c).sensors = m.sensors ∧ (m.dramUe u c).log = m.log ∧
    (m.dramUe u c).mgmt = m.mgmt ∧ (m.dramUe u c).pwr = m.pwr ∧ (m.dramUe u c).spad = m.spad ∧
    (m.dramUe u c).dram = m.dram ∧ (m.dramUe u c).pools = m.pools ∧ (m.dramUe u c).ctxs = m.ctxs ∧
    (m.dramUe u c).mv = m.mv ∧ (m.dramUe u c).arrays = m.arrays ∧ (m.dramUe u c).takeups = m.takeups ∧
    (m.dramUe u c).vecs = m.vecs ∧ (m.dramUe u c).audits = m.audits ∧ (m.dramUe u c).lastLoom = m.lastLoom ∧
    (m.dramUe u c).active = m.active ∧ (m.dramUe u c).inactive = m.inactive ∧
    (m.dramUe u c).lastDispatch = m.lastDispatch ∧ (m.dramUe u c).lastVec = m.lastVec ∧
    (m.dramUe u c).goose = m.goose ∧ (m.dramUe u c).links = m.links ∧ (m.dramUe u c).net = m.net ∧
    (m.dramUe u c).host = m.host ∧ (m.dramUe u c).shut = m.shut ∧ (m.dramUe u c).drover = m.drover ∧
    (m.dramUe u c).fw = m.fw :=
  by
  simp [Mach.dramUe]

@[simp] theorem Mach.spadUe_frame (m : Mach) (w : Nat) (c : Option CtxId) :
    (m.spadUe w c).grade = m.grade ∧ (m.spadUe w c).now = m.now ∧ (m.spadUe w c).freeCtr = m.freeCtr ∧
    (m.spadUe w c).out = m.out ∧ (m.spadUe w c).dict = m.dict ∧ (m.spadUe w c).islands = m.islands ∧
    (m.spadUe w c).netState = m.netState ∧ (m.spadUe w c).sensors = m.sensors ∧ (m.spadUe w c).log = m.log ∧
    (m.spadUe w c).mgmt = m.mgmt ∧ (m.spadUe w c).pwr = m.pwr ∧ (m.spadUe w c).spad = m.spad ∧
    (m.spadUe w c).dram = m.dram ∧ (m.spadUe w c).pools = m.pools ∧ (m.spadUe w c).ctxs = m.ctxs ∧
    (m.spadUe w c).mv = m.mv ∧ (m.spadUe w c).arrays = m.arrays ∧ (m.spadUe w c).takeups = m.takeups ∧
    (m.spadUe w c).vecs = m.vecs ∧ (m.spadUe w c).audits = m.audits ∧ (m.spadUe w c).lastLoom = m.lastLoom ∧
    (m.spadUe w c).active = m.active ∧ (m.spadUe w c).inactive = m.inactive ∧
    (m.spadUe w c).lastDispatch = m.lastDispatch ∧ (m.spadUe w c).lastVec = m.lastVec ∧
    (m.spadUe w c).goose = m.goose ∧ (m.spadUe w c).links = m.links ∧ (m.spadUe w c).net = m.net ∧
    (m.spadUe w c).host = m.host ∧ (m.spadUe w c).shut = m.shut ∧ (m.spadUe w c).drover = m.drover ∧
    (m.spadUe w c).fw = m.fw :=
  by
  simp [Mach.spadUe]

@[simp] theorem Mach.setCtxState_frame (m : Mach) (c : CtxId) (st : CtxState) (k : HaltCause) :
    (m.setCtxState c st k).grade = m.grade ∧ (m.setCtxState c st k).now = m.now ∧
    (m.setCtxState c st k).freeCtr = m.freeCtr ∧ (m.setCtxState c st k).out = m.out ∧
    (m.setCtxState c st k).dict = m.dict ∧ (m.setCtxState c st k).islands = m.islands ∧
    (m.setCtxState c st k).netState = m.netState ∧ (m.setCtxState c st k).sensors = m.sensors ∧
    (m.setCtxState c st k).mgmt = m.mgmt ∧ (m.setCtxState c st k).pwr = m.pwr ∧ (m.setCtxState c st k).mem = m.mem ∧
    (m.setCtxState c st k).spad = m.spad ∧ (m.setCtxState c st k).dram = m.dram ∧
    (m.setCtxState c st k).pools = m.pools ∧ (m.setCtxState c st k).mv = m.mv ∧
    (m.setCtxState c st k).arrays = m.arrays ∧ (m.setCtxState c st k).takeups = m.takeups ∧
    (m.setCtxState c st k).vecs = m.vecs ∧ (m.setCtxState c st k).audits = m.audits ∧
    (m.setCtxState c st k).lastLoom = m.lastLoom ∧ (m.setCtxState c st k).active = m.active ∧
    (m.setCtxState c st k).inactive = m.inactive ∧ (m.setCtxState c st k).lastDispatch = m.lastDispatch ∧
    (m.setCtxState c st k).lastVec = m.lastVec ∧ (m.setCtxState c st k).goose = m.goose ∧
    (m.setCtxState c st k).links = m.links ∧ (m.setCtxState c st k).net = m.net ∧
    (m.setCtxState c st k).host = m.host ∧ (m.setCtxState c st k).shut = m.shut ∧
    (m.setCtxState c st k).drover = m.drover ∧ (m.setCtxState c st k).fw = m.fw :=
  by
  unfold Mach.setCtxState; dsimp only; split <;> simp

@[simp] theorem Mach.faultCtx_frame (m : Mach) (c : CtxId) (i : FaultInfo) :
    (m.faultCtx c i).grade = m.grade ∧ (m.faultCtx c i).now = m.now ∧ (m.faultCtx c i).freeCtr = m.freeCtr ∧
    (m.faultCtx c i).out = m.out ∧ (m.faultCtx c i).dict = m.dict ∧ (m.faultCtx c i).islands = m.islands ∧
    (m.faultCtx c i).netState = m.netState ∧ (m.faultCtx c i).sensors = m.sensors ∧ (m.faultCtx c i).mgmt = m.mgmt ∧
    (m.faultCtx c i).pwr = m.pwr ∧ (m.faultCtx c i).mem = m.mem ∧ (m.faultCtx c i).spad = m.spad ∧
    (m.faultCtx c i).dram = m.dram ∧ (m.faultCtx c i).pools = m.pools ∧ (m.faultCtx c i).mv = m.mv ∧
    (m.faultCtx c i).arrays = m.arrays ∧ (m.faultCtx c i).takeups = m.takeups ∧ (m.faultCtx c i).vecs = m.vecs ∧
    (m.faultCtx c i).audits = m.audits ∧ (m.faultCtx c i).lastLoom = m.lastLoom ∧
    (m.faultCtx c i).active = m.active ∧ (m.faultCtx c i).inactive = m.inactive ∧
    (m.faultCtx c i).lastDispatch = m.lastDispatch ∧ (m.faultCtx c i).lastVec = m.lastVec ∧
    (m.faultCtx c i).goose = m.goose ∧ (m.faultCtx c i).links = m.links ∧ (m.faultCtx c i).net = m.net ∧
    (m.faultCtx c i).host = m.host ∧ (m.faultCtx c i).shut = m.shut ∧ (m.faultCtx c i).drover = m.drover ∧
    (m.faultCtx c i).fw = m.fw :=
  by
  unfold Mach.faultCtx; dsimp only; split <;> simp

@[simp] theorem Mach.failSlot_frame (m : Mach) (c : CtxId) (s : QSlot) (f : Failure) :
    (m.failSlot c s f).grade = m.grade ∧ (m.failSlot c s f).now = m.now ∧ (m.failSlot c s f).freeCtr = m.freeCtr ∧
    (m.failSlot c s f).out = m.out ∧ (m.failSlot c s f).dict = m.dict ∧ (m.failSlot c s f).islands = m.islands ∧
    (m.failSlot c s f).netState = m.netState ∧ (m.failSlot c s f).sensors = m.sensors ∧
    (m.failSlot c s f).mgmt = m.mgmt ∧ (m.failSlot c s f).pwr = m.pwr ∧ (m.failSlot c s f).mem = m.mem ∧
    (m.failSlot c s f).spad = m.spad ∧ (m.failSlot c s f).dram = m.dram ∧ (m.failSlot c s f).pools = m.pools ∧
    (m.failSlot c s f).mv = m.mv ∧ (m.failSlot c s f).arrays = m.arrays ∧ (m.failSlot c s f).takeups = m.takeups ∧
    (m.failSlot c s f).vecs = m.vecs ∧ (m.failSlot c s f).audits = m.audits ∧
    (m.failSlot c s f).lastLoom = m.lastLoom ∧ (m.failSlot c s f).active = m.active ∧
    (m.failSlot c s f).inactive = m.inactive ∧ (m.failSlot c s f).lastDispatch = m.lastDispatch ∧
    (m.failSlot c s f).lastVec = m.lastVec ∧ (m.failSlot c s f).goose = m.goose ∧
    (m.failSlot c s f).links = m.links ∧ (m.failSlot c s f).net = m.net ∧ (m.failSlot c s f).host = m.host ∧
    (m.failSlot c s f).shut = m.shut ∧ (m.failSlot c s f).drover = m.drover ∧ (m.failSlot c s f).fw = m.fw :=
  by
  simp [Mach.failSlot]

@[simp] theorem Mach.commitSlot_frame (m : Mach) (c : CtxId) (s : QSlot) (r : FaultRange × FaultRange) (x : Option RecFields) :
    (m.commitSlot c s r x).grade = m.grade ∧ (m.commitSlot c s r x).now = m.now ∧
    (m.commitSlot c s r x).freeCtr = m.freeCtr ∧ (m.commitSlot c s r x).out = m.out ∧
    (m.commitSlot c s r x).dict = m.dict ∧ (m.commitSlot c s r x).islands = m.islands ∧
    (m.commitSlot c s r x).netState = m.netState ∧ (m.commitSlot c s r x).sensors = m.sensors ∧
    (m.commitSlot c s r x).mgmt = m.mgmt ∧ (m.commitSlot c s r x).pwr = m.pwr ∧ (m.commitSlot c s r x).mem = m.mem ∧
    (m.commitSlot c s r x).spad = m.spad ∧ (m.commitSlot c s r x).dram = m.dram ∧
    (m.commitSlot c s r x).pools = m.pools ∧ (m.commitSlot c s r x).mv = m.mv ∧
    (m.commitSlot c s r x).arrays = m.arrays ∧ (m.commitSlot c s r x).takeups = m.takeups ∧
    (m.commitSlot c s r x).vecs = m.vecs ∧ (m.commitSlot c s r x).audits = m.audits ∧
    (m.commitSlot c s r x).lastLoom = m.lastLoom ∧ (m.commitSlot c s r x).active = m.active ∧
    (m.commitSlot c s r x).inactive = m.inactive ∧ (m.commitSlot c s r x).lastDispatch = m.lastDispatch ∧
    (m.commitSlot c s r x).lastVec = m.lastVec ∧ (m.commitSlot c s r x).goose = m.goose ∧
    (m.commitSlot c s r x).links = m.links ∧ (m.commitSlot c s r x).net = m.net ∧
    (m.commitSlot c s r x).host = m.host ∧ (m.commitSlot c s r x).shut = m.shut ∧
    (m.commitSlot c s r x).drover = m.drover ∧ (m.commitSlot c s r x).fw = m.fw :=
  by
  unfold Mach.commitSlot; dsimp only; split
  · simp
  · cases x <;> split <;> simp

@[simp] theorem Mach.fireWord_frame (m : Mach) (c : CtxId) (w : WordRec) :
    (m.fireWord c w).grade = m.grade ∧ (m.fireWord c w).now = m.now ∧ (m.fireWord c w).freeCtr = m.freeCtr ∧
    (m.fireWord c w).out = m.out ∧ (m.fireWord c w).dict = m.dict ∧ (m.fireWord c w).islands = m.islands ∧
    (m.fireWord c w).netState = m.netState ∧ (m.fireWord c w).sensors = m.sensors ∧ (m.fireWord c w).mgmt = m.mgmt ∧
    (m.fireWord c w).pwr = m.pwr ∧ (m.fireWord c w).mem = m.mem ∧ (m.fireWord c w).spad = m.spad ∧
    (m.fireWord c w).dram = m.dram ∧ (m.fireWord c w).pools = m.pools ∧ (m.fireWord c w).mv = m.mv ∧
    (m.fireWord c w).arrays = m.arrays ∧ (m.fireWord c w).takeups = m.takeups ∧ (m.fireWord c w).vecs = m.vecs ∧
    (m.fireWord c w).audits = m.audits ∧ (m.fireWord c w).lastLoom = m.lastLoom ∧
    (m.fireWord c w).active = m.active ∧ (m.fireWord c w).inactive = m.inactive ∧
    (m.fireWord c w).lastDispatch = m.lastDispatch ∧ (m.fireWord c w).lastVec = m.lastVec ∧
    (m.fireWord c w).goose = m.goose ∧ (m.fireWord c w).links = m.links ∧ (m.fireWord c w).net = m.net ∧
    (m.fireWord c w).host = m.host ∧ (m.fireWord c w).shut = m.shut ∧ (m.fireWord c w).drover = m.drover ∧
    (m.fireWord c w).fw = m.fw :=
  by
  unfold Mach.fireWord; dsimp only; split
  · simp
  · split <;> simp

@[simp] theorem Mach.wake_frame (m : Mach) (is : List IslandId) :
    (m.wake is).grade = m.grade ∧ (m.wake is).now = m.now ∧ (m.wake is).freeCtr = m.freeCtr ∧
    (m.wake is).out = m.out ∧ (m.wake is).dict = m.dict ∧ (m.wake is).netState = m.netState ∧
    (m.wake is).counters = m.counters ∧ (m.wake is).sensors = m.sensors ∧ (m.wake is).log = m.log ∧
    (m.wake is).mgmt = m.mgmt ∧ (m.wake is).pwr = m.pwr ∧ (m.wake is).mem = m.mem ∧ (m.wake is).spad = m.spad ∧
    (m.wake is).dram = m.dram ∧ (m.wake is).pools = m.pools ∧ (m.wake is).ctxs = m.ctxs ∧ (m.wake is).mv = m.mv ∧
    (m.wake is).arrays = m.arrays ∧ (m.wake is).takeups = m.takeups ∧ (m.wake is).vecs = m.vecs ∧
    (m.wake is).audits = m.audits ∧ (m.wake is).lastLoom = m.lastLoom ∧ (m.wake is).active = m.active ∧
    (m.wake is).inactive = m.inactive ∧ (m.wake is).lastDispatch = m.lastDispatch ∧ (m.wake is).lastVec = m.lastVec ∧
    (m.wake is).goose = m.goose ∧ (m.wake is).links = m.links ∧ (m.wake is).net = m.net ∧ (m.wake is).host = m.host ∧
    (m.wake is).shut = m.shut ∧ (m.wake is).drover = m.drover ∧ (m.wake is).fw = m.fw :=
  by
  induction is generalizing m with
  | nil => simp [Mach.wake]
  | cons i is ih =>
    have h := ih (m.modIsland i fun x => if x.st = .clockGated then { x with st := .run } else x)
    simp only [Mach.modIsland_frame] at h
    exact h

@[simp] theorem Mach.setIslands_frame (m : Mach) (is : List IslandId) (st : IslandState) :
    (m.setIslands is st).grade = m.grade ∧ (m.setIslands is st).now = m.now ∧
    (m.setIslands is st).freeCtr = m.freeCtr ∧ (m.setIslands is st).out = m.out ∧
    (m.setIslands is st).dict = m.dict ∧ (m.setIslands is st).netState = m.netState ∧
    (m.setIslands is st).counters = m.counters ∧ (m.setIslands is st).sensors = m.sensors ∧
    (m.setIslands is st).log = m.log ∧ (m.setIslands is st).mgmt = m.mgmt ∧ (m.setIslands is st).pwr = m.pwr ∧
    (m.setIslands is st).mem = m.mem ∧ (m.setIslands is st).spad = m.spad ∧ (m.setIslands is st).dram = m.dram ∧
    (m.setIslands is st).pools = m.pools ∧ (m.setIslands is st).ctxs = m.ctxs ∧ (m.setIslands is st).mv = m.mv ∧
    (m.setIslands is st).arrays = m.arrays ∧ (m.setIslands is st).takeups = m.takeups ∧
    (m.setIslands is st).vecs = m.vecs ∧ (m.setIslands is st).audits = m.audits ∧
    (m.setIslands is st).lastLoom = m.lastLoom ∧ (m.setIslands is st).active = m.active ∧
    (m.setIslands is st).inactive = m.inactive ∧ (m.setIslands is st).lastDispatch = m.lastDispatch ∧
    (m.setIslands is st).lastVec = m.lastVec ∧ (m.setIslands is st).goose = m.goose ∧
    (m.setIslands is st).links = m.links ∧ (m.setIslands is st).net = m.net ∧ (m.setIslands is st).host = m.host ∧
    (m.setIslands is st).shut = m.shut ∧ (m.setIslands is st).drover = m.drover ∧ (m.setIslands is st).fw = m.fw :=
  by
  induction is generalizing m with
  | nil => simp [Mach.setIslands]
  | cons i is ih =>
    have h := ih (m.modIsland i fun x => { x with st := st, poweringOn := false, gateReq := false })
    simp only [Mach.modIsland_frame] at h
    exact h

@[simp] theorem Mach.selfRefresh_frame (m : Mach) (on : Bool) :
    (m.selfRefresh on).grade = m.grade ∧ (m.selfRefresh on).now = m.now ∧ (m.selfRefresh on).freeCtr = m.freeCtr ∧
    (m.selfRefresh on).out = m.out ∧ (m.selfRefresh on).dict = m.dict ∧ (m.selfRefresh on).islands = m.islands ∧
    (m.selfRefresh on).netState = m.netState ∧ (m.selfRefresh on).counters = m.counters ∧
    (m.selfRefresh on).sensors = m.sensors ∧ (m.selfRefresh on).log = m.log ∧ (m.selfRefresh on).mgmt = m.mgmt ∧
    (m.selfRefresh on).pwr = m.pwr ∧ (m.selfRefresh on).spad = m.spad ∧ (m.selfRefresh on).dram = m.dram ∧
    (m.selfRefresh on).pools = m.pools ∧ (m.selfRefresh on).ctxs = m.ctxs ∧ (m.selfRefresh on).mv = m.mv ∧
    (m.selfRefresh on).arrays = m.arrays ∧ (m.selfRefresh on).takeups = m.takeups ∧
    (m.selfRefresh on).vecs = m.vecs ∧ (m.selfRefresh on).audits = m.audits ∧
    (m.selfRefresh on).lastLoom = m.lastLoom ∧ (m.selfRefresh on).active = m.active ∧
    (m.selfRefresh on).inactive = m.inactive ∧ (m.selfRefresh on).lastDispatch = m.lastDispatch ∧
    (m.selfRefresh on).lastVec = m.lastVec ∧ (m.selfRefresh on).goose = m.goose ∧
    (m.selfRefresh on).links = m.links ∧ (m.selfRefresh on).net = m.net ∧ (m.selfRefresh on).host = m.host ∧
    (m.selfRefresh on).shut = m.shut ∧ (m.selfRefresh on).drover = m.drover ∧ (m.selfRefresh on).fw = m.fw :=
  by
  simp [Mach.selfRefresh]

@[simp] theorem Mach.enterQuiet_frame (m : Mach) :
    (m.enterQuiet).grade = m.grade ∧ (m.enterQuiet).now = m.now ∧ (m.enterQuiet).freeCtr = m.freeCtr ∧
    (m.enterQuiet).out = m.out ∧ (m.enterQuiet).dict = m.dict ∧ (m.enterQuiet).netState = m.netState ∧
    (m.enterQuiet).counters = m.counters ∧ (m.enterQuiet).sensors = m.sensors ∧ (m.enterQuiet).log = m.log ∧
    (m.enterQuiet).mgmt = m.mgmt ∧ (m.enterQuiet).spad = m.spad ∧ (m.enterQuiet).dram = m.dram ∧
    (m.enterQuiet).pools = m.pools ∧ (m.enterQuiet).ctxs = m.ctxs ∧ (m.enterQuiet).mv = m.mv ∧
    (m.enterQuiet).arrays = m.arrays ∧ (m.enterQuiet).takeups = m.takeups ∧ (m.enterQuiet).vecs = m.vecs ∧
    (m.enterQuiet).audits = m.audits ∧ (m.enterQuiet).lastLoom = m.lastLoom ∧ (m.enterQuiet).active = m.active ∧
    (m.enterQuiet).inactive = m.inactive ∧ (m.enterQuiet).lastDispatch = m.lastDispatch ∧
    (m.enterQuiet).lastVec = m.lastVec ∧ (m.enterQuiet).goose = m.goose ∧ (m.enterQuiet).links = m.links ∧
    (m.enterQuiet).net = m.net ∧ (m.enterQuiet).host = m.host ∧ (m.enterQuiet).shut = m.shut ∧
    (m.enterQuiet).drover = m.drover ∧ (m.enterQuiet).fw = m.fw :=
  by
  simp [Mach.enterQuiet]

@[simp] theorem Mach.leaveQuiet_frame (m : Mach) :
    (m.leaveQuiet).grade = m.grade ∧ (m.leaveQuiet).now = m.now ∧ (m.leaveQuiet).freeCtr = m.freeCtr ∧
    (m.leaveQuiet).out = m.out ∧ (m.leaveQuiet).dict = m.dict ∧ (m.leaveQuiet).netState = m.netState ∧
    (m.leaveQuiet).counters = m.counters ∧ (m.leaveQuiet).sensors = m.sensors ∧ (m.leaveQuiet).log = m.log ∧
    (m.leaveQuiet).mgmt = m.mgmt ∧ (m.leaveQuiet).spad = m.spad ∧ (m.leaveQuiet).dram = m.dram ∧
    (m.leaveQuiet).pools = m.pools ∧ (m.leaveQuiet).ctxs = m.ctxs ∧ (m.leaveQuiet).mv = m.mv ∧
    (m.leaveQuiet).arrays = m.arrays ∧ (m.leaveQuiet).takeups = m.takeups ∧ (m.leaveQuiet).vecs = m.vecs ∧
    (m.leaveQuiet).audits = m.audits ∧ (m.leaveQuiet).lastLoom = m.lastLoom ∧ (m.leaveQuiet).active = m.active ∧
    (m.leaveQuiet).inactive = m.inactive ∧ (m.leaveQuiet).lastDispatch = m.lastDispatch ∧
    (m.leaveQuiet).lastVec = m.lastVec ∧ (m.leaveQuiet).goose = m.goose ∧ (m.leaveQuiet).links = m.links ∧
    (m.leaveQuiet).net = m.net ∧ (m.leaveQuiet).host = m.host ∧ (m.leaveQuiet).shut = m.shut ∧
    (m.leaveQuiet).drover = m.drover ∧ (m.leaveQuiet).fw = m.fw :=
  by
  unfold Mach.leaveQuiet; split <;> simp

@[simp] theorem Mach.psnTx_frame (m : Mach) (c : CtxId) (q : QpNo) (n : Nat) :
    (m.psnTx c q n).grade = m.grade ∧ (m.psnTx c q n).now = m.now ∧ (m.psnTx c q n).freeCtr = m.freeCtr ∧
    (m.psnTx c q n).out = m.out ∧ (m.psnTx c q n).dict = m.dict ∧ (m.psnTx c q n).islands = m.islands ∧
    (m.psnTx c q n).netState = m.netState ∧ (m.psnTx c q n).counters = m.counters ∧
    (m.psnTx c q n).sensors = m.sensors ∧ (m.psnTx c q n).log = m.log ∧ (m.psnTx c q n).mgmt = m.mgmt ∧
    (m.psnTx c q n).pwr = m.pwr ∧ (m.psnTx c q n).mem = m.mem ∧ (m.psnTx c q n).spad = m.spad ∧
    (m.psnTx c q n).dram = m.dram ∧ (m.psnTx c q n).pools = m.pools ∧ (m.psnTx c q n).mv = m.mv ∧
    (m.psnTx c q n).arrays = m.arrays ∧ (m.psnTx c q n).takeups = m.takeups ∧ (m.psnTx c q n).vecs = m.vecs ∧
    (m.psnTx c q n).audits = m.audits ∧ (m.psnTx c q n).lastLoom = m.lastLoom ∧ (m.psnTx c q n).active = m.active ∧
    (m.psnTx c q n).inactive = m.inactive ∧ (m.psnTx c q n).lastDispatch = m.lastDispatch ∧
    (m.psnTx c q n).lastVec = m.lastVec ∧ (m.psnTx c q n).goose = m.goose ∧ (m.psnTx c q n).links = m.links ∧
    (m.psnTx c q n).net = m.net ∧ (m.psnTx c q n).host = m.host ∧ (m.psnTx c q n).shut = m.shut ∧
    (m.psnTx c q n).drover = m.drover ∧ (m.psnTx c q n).fw = m.fw :=
  by
  simp [Mach.psnTx]

@[simp] theorem Mach.psnRx_frame (m : Mach) (c : CtxId) (q : QpNo) (n : Nat) :
    (m.psnRx c q n).grade = m.grade ∧ (m.psnRx c q n).now = m.now ∧ (m.psnRx c q n).freeCtr = m.freeCtr ∧
    (m.psnRx c q n).out = m.out ∧ (m.psnRx c q n).dict = m.dict ∧ (m.psnRx c q n).islands = m.islands ∧
    (m.psnRx c q n).netState = m.netState ∧ (m.psnRx c q n).counters = m.counters ∧
    (m.psnRx c q n).sensors = m.sensors ∧ (m.psnRx c q n).log = m.log ∧ (m.psnRx c q n).mgmt = m.mgmt ∧
    (m.psnRx c q n).pwr = m.pwr ∧ (m.psnRx c q n).mem = m.mem ∧ (m.psnRx c q n).spad = m.spad ∧
    (m.psnRx c q n).dram = m.dram ∧ (m.psnRx c q n).pools = m.pools ∧ (m.psnRx c q n).mv = m.mv ∧
    (m.psnRx c q n).arrays = m.arrays ∧ (m.psnRx c q n).takeups = m.takeups ∧ (m.psnRx c q n).vecs = m.vecs ∧
    (m.psnRx c q n).audits = m.audits ∧ (m.psnRx c q n).lastLoom = m.lastLoom ∧ (m.psnRx c q n).active = m.active ∧
    (m.psnRx c q n).inactive = m.inactive ∧ (m.psnRx c q n).lastDispatch = m.lastDispatch ∧
    (m.psnRx c q n).lastVec = m.lastVec ∧ (m.psnRx c q n).goose = m.goose ∧ (m.psnRx c q n).links = m.links ∧
    (m.psnRx c q n).net = m.net ∧ (m.psnRx c q n).host = m.host ∧ (m.psnRx c q n).shut = m.shut ∧
    (m.psnRx c q n).drover = m.drover ∧ (m.psnRx c q n).fw = m.fw :=
  by
  simp [Mach.psnRx]

@[simp] theorem Mach.reply_frame (m : Mach) (o : Out) :
    (m.reply o).grade = m.grade ∧ (m.reply o).now = m.now ∧ (m.reply o).freeCtr = m.freeCtr ∧
    (m.reply o).dict = m.dict ∧ (m.reply o).islands = m.islands ∧ (m.reply o).netState = m.netState ∧
    (m.reply o).counters = m.counters ∧ (m.reply o).sensors = m.sensors ∧ (m.reply o).log = m.log ∧
    (m.reply o).mgmt = m.mgmt ∧ (m.reply o).pwr = m.pwr ∧ (m.reply o).mem = m.mem ∧ (m.reply o).spad = m.spad ∧
    (m.reply o).dram = m.dram ∧ (m.reply o).pools = m.pools ∧ (m.reply o).mv = m.mv ∧ (m.reply o).arrays = m.arrays ∧
    (m.reply o).takeups = m.takeups ∧ (m.reply o).vecs = m.vecs ∧ (m.reply o).audits = m.audits ∧
    (m.reply o).lastLoom = m.lastLoom ∧ (m.reply o).active = m.active ∧ (m.reply o).inactive = m.inactive ∧
    (m.reply o).lastDispatch = m.lastDispatch ∧ (m.reply o).lastVec = m.lastVec ∧ (m.reply o).goose = m.goose ∧
    (m.reply o).links = m.links ∧ (m.reply o).net = m.net ∧ (m.reply o).shut = m.shut ∧
    (m.reply o).drover = m.drover ∧ (m.reply o).fw = m.fw :=
  by
  unfold Mach.reply; split <;> simp

@[simp] theorem Mach.logWrite_frame (m : Mach) (ch : Channel) (idx sub : Nat) (b : Bytes) :
    (m.logWrite ch idx sub b).grade = m.grade ∧ (m.logWrite ch idx sub b).now = m.now ∧
    (m.logWrite ch idx sub b).freeCtr = m.freeCtr ∧ (m.logWrite ch idx sub b).out = m.out ∧
    (m.logWrite ch idx sub b).dict = m.dict ∧ (m.logWrite ch idx sub b).islands = m.islands ∧
    (m.logWrite ch idx sub b).netState = m.netState ∧ (m.logWrite ch idx sub b).sensors = m.sensors ∧
    (m.logWrite ch idx sub b).mgmt = m.mgmt ∧ (m.logWrite ch idx sub b).pwr = m.pwr ∧
    (m.logWrite ch idx sub b).mem = m.mem ∧ (m.logWrite ch idx sub b).spad = m.spad ∧
    (m.logWrite ch idx sub b).dram = m.dram ∧ (m.logWrite ch idx sub b).pools = m.pools ∧
    (m.logWrite ch idx sub b).ctxs = m.ctxs ∧ (m.logWrite ch idx sub b).mv = m.mv ∧
    (m.logWrite ch idx sub b).arrays = m.arrays ∧ (m.logWrite ch idx sub b).takeups = m.takeups ∧
    (m.logWrite ch idx sub b).vecs = m.vecs ∧ (m.logWrite ch idx sub b).audits = m.audits ∧
    (m.logWrite ch idx sub b).lastLoom = m.lastLoom ∧ (m.logWrite ch idx sub b).active = m.active ∧
    (m.logWrite ch idx sub b).inactive = m.inactive ∧ (m.logWrite ch idx sub b).lastDispatch = m.lastDispatch ∧
    (m.logWrite ch idx sub b).lastVec = m.lastVec ∧ (m.logWrite ch idx sub b).goose = m.goose ∧
    (m.logWrite ch idx sub b).links = m.links ∧ (m.logWrite ch idx sub b).net = m.net ∧
    (m.logWrite ch idx sub b).host = m.host ∧ (m.logWrite ch idx sub b).shut = m.shut ∧
    (m.logWrite ch idx sub b).drover = m.drover ∧ (m.logWrite ch idx sub b).fw = m.fw :=
  by
  unfold Mach.logWrite; split <;> simp

@[simp] theorem Mach.refused_frame (m : Mach) (a : Nat → Out) (e : Nat) :
    (m.refused a e).grade = m.grade ∧ (m.refused a e).now = m.now ∧ (m.refused a e).freeCtr = m.freeCtr ∧
    (m.refused a e).dict = m.dict ∧ (m.refused a e).islands = m.islands ∧ (m.refused a e).netState = m.netState ∧
    (m.refused a e).sensors = m.sensors ∧ (m.refused a e).log = m.log ∧ (m.refused a e).mgmt = m.mgmt ∧
    (m.refused a e).pwr = m.pwr ∧ (m.refused a e).mem = m.mem ∧ (m.refused a e).spad = m.spad ∧
    (m.refused a e).dram = m.dram ∧ (m.refused a e).pools = m.pools ∧ (m.refused a e).mv = m.mv ∧
    (m.refused a e).arrays = m.arrays ∧ (m.refused a e).takeups = m.takeups ∧ (m.refused a e).vecs = m.vecs ∧
    (m.refused a e).audits = m.audits ∧ (m.refused a e).lastLoom = m.lastLoom ∧ (m.refused a e).active = m.active ∧
    (m.refused a e).inactive = m.inactive ∧ (m.refused a e).lastDispatch = m.lastDispatch ∧
    (m.refused a e).lastVec = m.lastVec ∧ (m.refused a e).goose = m.goose ∧ (m.refused a e).links = m.links ∧
    (m.refused a e).net = m.net ∧ (m.refused a e).shut = m.shut ∧ (m.refused a e).drover = m.drover ∧
    (m.refused a e).fw = m.fw :=
  by
  simp [Mach.refused]

@[simp] theorem Mach.answerLater_frame (m : Mach) (idx : Nat) (o : Out) :
    (m.answerLater idx o).grade = m.grade ∧ (m.answerLater idx o).now = m.now ∧
    (m.answerLater idx o).freeCtr = m.freeCtr ∧ (m.answerLater idx o).out = m.out ∧
    (m.answerLater idx o).dict = m.dict ∧ (m.answerLater idx o).islands = m.islands ∧
    (m.answerLater idx o).netState = m.netState ∧ (m.answerLater idx o).counters = m.counters ∧
    (m.answerLater idx o).sensors = m.sensors ∧ (m.answerLater idx o).log = m.log ∧
    (m.answerLater idx o).pwr = m.pwr ∧ (m.answerLater idx o).mem = m.mem ∧ (m.answerLater idx o).spad = m.spad ∧
    (m.answerLater idx o).dram = m.dram ∧ (m.answerLater idx o).pools = m.pools ∧ (m.answerLater idx o).mv = m.mv ∧
    (m.answerLater idx o).arrays = m.arrays ∧ (m.answerLater idx o).takeups = m.takeups ∧
    (m.answerLater idx o).vecs = m.vecs ∧ (m.answerLater idx o).audits = m.audits ∧
    (m.answerLater idx o).lastLoom = m.lastLoom ∧ (m.answerLater idx o).active = m.active ∧
    (m.answerLater idx o).inactive = m.inactive ∧ (m.answerLater idx o).lastDispatch = m.lastDispatch ∧
    (m.answerLater idx o).lastVec = m.lastVec ∧ (m.answerLater idx o).goose = m.goose ∧
    (m.answerLater idx o).links = m.links ∧ (m.answerLater idx o).net = m.net ∧ (m.answerLater idx o).host = m.host ∧
    (m.answerLater idx o).shut = m.shut ∧ (m.answerLater idx o).drover = m.drover ∧ (m.answerLater idx o).fw = m.fw :=
  by
  unfold Mach.answerLater; split <;> simp

end Sys2Proof.Machine
end

