-- ==== Sys2Proof/Laws/Memory.lean ====
section
/-! SUPPORT. Laws of the sparse tables and of the two memories: what a read gives after a write, and that every memory operation
keeps the canonical form. -/

namespace Sys2Proof.Machine

open Sys2Proof

/-! ### Reading a sparse table after a change of one key -/

theorem Sparse.find_erase {V : Type} (k j : Nat) (m : Sparse V) :
    Sparse.find j (Sparse.erase k m) = if j = k then none else Sparse.find j m := by
  induction m with
  | nil => simp [Sparse.erase, Sparse.find]
  | cons e rest ih =>
    obtain ⟨a, v⟩ := e
    unfold Sparse.erase at ih ⊢
    by_cases ha : a = k
    · subst ha
      by_cases hj : j = a
      · simpa [Sparse.find, hj] using ih
      · have : ¬ a = j := fun e => hj e.symm
        simpa [Sparse.find, hj, this] using ih
    · by_cases hj : a = j
      · subst hj; simp [Sparse.find, ha]
      · simpa [Sparse.find, ha, hj] using ih

theorem Sparse.find_insert {V : Type} (k j : Nat) (v : V) (m : Sparse V) (h : Sparse.find k m = none) :
    Sparse.find j (Sparse.insert k v m) = if j = k then some v else Sparse.find j m := by
  induction m with
  | nil =>
    by_cases hj : j = k
    · simp [Sparse.insert, Sparse.find, hj]
    · have : ¬ k = j := fun e => hj e.symm
      simp [Sparse.insert, Sparse.find, hj, this]
  | cons e rest ih =>
    obtain ⟨a, w⟩ := e
    have ha : ¬ a = k := by
      intro e; simp [Sparse.find, e] at h
    simp only [Sparse.find, ha, if_false] at h
    by_cases hk : k < a
    · by_cases hj : j = k
      · simp [Sparse.insert, Sparse.find, hk, hj]
      · have : ¬ k = j := fun e => hj e.symm
        simp [Sparse.insert, Sparse.find, hk, hj, this]
    · by_cases hj : a = j
      · subst hj; simp [Sparse.insert, Sparse.find, hk, ha]
      · simpa [Sparse.insert, Sparse.find, hk, hj] using ih h

theorem Sparse.find_put {V : Type} (k j : Nat) (v : V) (m : Sparse V) :
    Sparse.find j (Sparse.put k v m) = if j = k then some v else Sparse.find j m := by
  unfold Sparse.put
  rw [Sparse.find_insert _ _ _ _ (by simp [Sparse.find_erase]), Sparse.find_erase]
  split <;> simp_all

theorem Sparse.get_find {V : Type} (d : V) (k : Nat) (m : Sparse V) : Sparse.get d k m = (Sparse.find k m).getD d := by
  induction m with
  | nil => rfl
  | cons e rest ih =>
    obtain ⟨a, v⟩ := e
    by_cases h : a = k <;> simp [Sparse.get, Sparse.find, h, ih]

theorem Sparse.get_set {V : Type} [DecidableEq V] (d : V) (k j : Nat) (v : V) (m : Sparse V) :
    Sparse.get d j (Sparse.set d k v m) = if j = k then v else Sparse.get d j m := by
  unfold Sparse.set
  split
  · rename_i h
    rw [Sparse.get_find, Sparse.find_erase, Sparse.get_find]
    split <;> simp [h]
  · rw [Sparse.get_find, Sparse.get_find, ← Sparse.put, Sparse.find_put]
    split <;> simp

/-! ### Reading a memory after one byte is written -/

theorem Memory.find_write (d : Nat → Option Byte) (a b : Nat) (v : Byte) (m : Sparse Byte) :
    Sparse.find b (Memory.write d a v m) = if b = a then (if some v = d a then none else some v) else Sparse.find b m := by
  unfold Memory.write
  split
  · rw [Sparse.find_erase]
  · rw [Sparse.find_put]

/-! ### The canonical form -/

/-- Every key of a table is at least k. -/
def Sparse.above {V : Type} (k : Nat) (m : Sparse V) : Prop := ∀ e ∈ m, k ≤ e.1

theorem Sparse.sorted_cons {V : Type} (e : Nat × V) (m : Sparse V) :
    Sparse.sorted (e :: m) = true ↔ Sparse.above (e.1 + 1) m ∧ Sparse.sorted m = true := by
  induction m generalizing e with
  | nil => simp [Sparse.sorted, Sparse.above]
  | cons f rest ih =>
    obtain ⟨j, v⟩ := e
    obtain ⟨k, w⟩ := f
    have h := ih (k, w)
    simp only [Sparse.sorted, Bool.and_eq_true, decide_eq_true_eq]
    constructor
    · rintro ⟨hjk, hs⟩
      refine ⟨?_, hs⟩
      intro x hx
      rcases List.mem_cons.mp hx with rfl | hx
      · exact hjk
      · have := (h.mp hs).1 x hx
        simp only at this ⊢
        omega
    · rintro ⟨ha, hs⟩
      exact ⟨ha (k, w) (by simp), hs⟩

theorem Sparse.above_filter {V : Type} (k : Nat) (p : Nat × V → Bool) (m : Sparse V) (h : Sparse.above k m) :
    Sparse.above k (m.filter p) := fun e he => h e (List.mem_filter.mp he).1

theorem Sparse.sorted_filter {V : Type} (p : Nat × V → Bool) (m : Sparse V) (h : Sparse.sorted m = true) :
    Sparse.sorted (m.filter p) = true := by
  induction m with
  | nil => simp [Sparse.sorted]
  | cons e rest ih =>
    have h' := (Sparse.sorted_cons e rest).mp h
    rw [List.filter_cons]
    split
    · exact (Sparse.sorted_cons _ _).mpr ⟨Sparse.above_filter _ _ _ h'.1, ih h'.2⟩
    · exact ih h'.2

theorem Sparse.mem_insert {V : Type} (k : Nat) (v : V) (m : Sparse V) (e : Nat × V) :
    e ∈ Sparse.insert k v m ↔ e = (k, v) ∨ e ∈ m := by
  induction m with
  | nil => simp [Sparse.insert]
  | cons f rest ih =>
    obtain ⟨j, w⟩ := f
    unfold Sparse.insert
    split
    · simp
    · simp only [List.mem_cons, ih]; tauto

theorem Sparse.sorted_insert {V : Type} (k : Nat) (v : V) (m : Sparse V) (h : Sparse.sorted m = true)
    (hk : ∀ e ∈ m, e.1 ≠ k) : Sparse.sorted (Sparse.insert k v m) = true := by
  induction m with
  | nil => rfl
  | cons f rest ih =>
    obtain ⟨j, w⟩ := f
    have h' := (Sparse.sorted_cons (j, w) rest).mp h
    unfold Sparse.insert
    split
    · rename_i hlt
      refine (Sparse.sorted_cons _ _).mpr ⟨?_, h⟩
      intro e he
      rcases List.mem_cons.mp he with rfl | he
      · exact hlt
      · have := h'.1 e he
        simp only at this ⊢
        omega
    · rename_i hlt
      have hj : j ≠ k := hk (j, w) (by simp)
      refine (Sparse.sorted_cons _ _).mpr ⟨?_, ih h'.2 fun e he => hk e (by simp [he])⟩
      intro e he
      rcases (Sparse.mem_insert k v rest e).mp he with rfl | he
      · simp only; omega
      · exact h'.1 e he

theorem Sparse.erase_ne {V : Type} (k : Nat) (m : Sparse V) : ∀ e ∈ Sparse.erase k m, e.1 ≠ k := by
  intro e he
  simpa using (List.mem_filter.mp he).2

theorem Sparse.sorted_erase {V : Type} (k : Nat) (m : Sparse V) (h : Sparse.sorted m = true) :
    Sparse.sorted (Sparse.erase k m) = true := Sparse.sorted_filter _ _ h

theorem Sparse.sorted_put {V : Type} (k : Nat) (v : V) (m : Sparse V) (h : Sparse.sorted m = true) :
    Sparse.sorted (Sparse.put k v m) = true :=
  Sparse.sorted_insert _ _ _ (Sparse.sorted_erase _ _ h) (Sparse.erase_ne _ _)

/-- The canonical form as a proposition. -/
theorem Memory.wf_iff (d : Nat → Option Byte) (m : Sparse Byte) :
    Memory.wf d m = true ↔ Sparse.sorted m = true ∧ ∀ e ∈ m, some e.2 ≠ d e.1 := by
  simp [Memory.wf]

theorem Memory.wf_nil (d : Nat → Option Byte) : Memory.wf d [] = true := by simp [Memory.wf, Sparse.sorted]

theorem Memory.wf_filter (d : Nat → Option Byte) (p : Nat × Byte → Bool) (m : Sparse Byte) (h : Memory.wf d m = true) :
    Memory.wf d (m.filter p) = true := by
  rw [Memory.wf_iff] at h ⊢
  exact ⟨Sparse.sorted_filter _ _ h.1, fun e he => h.2 e (List.mem_filter.mp he).1⟩

/-- Writing one byte keeps the canonical form. -/
theorem Memory.wf_write (d : Nat → Option Byte) (a : Nat) (v : Byte) (m : Sparse Byte) (h : Memory.wf d m = true) :
    Memory.wf d (Memory.write d a v m) = true := by
  unfold Memory.write
  split
  · exact Memory.wf_filter d _ m h
  · rename_i hv
    rw [Memory.wf_iff] at h ⊢
    refine ⟨Sparse.sorted_put _ _ _ h.1, ?_⟩
    intro e he
    rcases (Sparse.mem_insert _ _ _ _).mp he with rfl | he
    · exact hv
    · exact h.2 e (List.mem_filter.mp he).1

/-- Writing bytes keeps the canonical form. -/
theorem Memory.wf_writeAll (d : Nat → Option Byte) (a : Nat) (b : Bytes) (m : Sparse Byte) (h : Memory.wf d m = true) :
    Memory.wf d (Memory.writeAll d a b m) = true := by
  induction b generalizing a m with
  | nil => exact h
  | cons x rest ih => exact ih _ _ (Memory.wf_write d a x m h)

/-! ### The machine's two memories -/

/-- Both memories are in canonical form: the scratchpad's unlisted bytes read 0 (R82), DRAM's are 0 in ranges that a window
gained (R87) and have no fixed value elsewhere. -/
def Mach.memWf (m : Mach) : Prop := Memory.wf spadDefault m.spad = true ∧ Memory.wf m.mem.dramDefault m.dram = true

theorem Mach.memWf_reset : State.reset.m.memWf := by
  constructor <;> rfl

theorem Mach.memWf_spadWrite (m : Mach) (a : Nat) (b : Bytes) (h : m.memWf) : (m.spadWrite a b).memWf :=
  ⟨Memory.wf_writeAll _ _ _ _ h.1, h.2⟩

theorem Mach.memWf_spadUndefine (m : Mach) (a n : Nat) (h : m.memWf) : (m.spadUndefine a n).memWf :=
  ⟨Memory.wf_writeAll _ _ _ _ h.1, h.2⟩

theorem Mach.memWf_dramPut (m : Mach) (a : Nat) (b : Bytes) (h : m.memWf) : (m.dramPut a b).memWf :=
  ⟨h.1, Memory.wf_writeAll _ _ _ _ h.2⟩

theorem Mach.memWf_dramUndefine (m : Mach) (a n : Nat) (h : m.memWf) : (m.dramUndefine a n).memWf :=
  ⟨h.1, Memory.wf_writeAll _ _ _ _ h.2⟩

theorem Mach.memWf_dramZero (m : Mach) (a n : Nat) (h : m.memWf) : (m.dramZero a n).memWf := by
  refine ⟨h.1, ?_⟩
  have h2 := h.2
  simp only [Mach.dramZero]
  rw [Memory.wf_iff] at h2 ⊢
  refine ⟨Sparse.sorted_filter _ _ h2.1, ?_⟩
  intro e he
  obtain ⟨hm, ho⟩ := List.mem_filter.mp he
  have hd := h2.2 e hm
  have out : (decide (a ≤ e.1) && decide (e.1 < a + n)) = false := by
    simp only [Bool.not_eq_true', Bool.and_eq_false_iff] at ho ⊢
    exact ho
  have same : ({ m.mem with zeroed := (a, n, []) :: m.mem.zeroed }.renewUnits a n).dramDefault e.1 = m.mem.dramDefault e.1 := by
    simp only [MemSys.dramDefault, MemSys.renewUnits, List.any_cons, out, Bool.false_and, Bool.false_or]
  intro he'
  exact hd (he'.trans same)

/-- A channel that loses its contents takes its bytes out of the list; what other channels' bytes read as stays. -/
theorem Mach.memWf_loseChan (m : Mach) (ch : DramChan) (h : m.memWf) : (m.loseChan ch).memWf := by
  refine ⟨h.1, ?_⟩
  have h2 := h.2
  simp only [Mach.loseChan, Mach.loseSlots]
  rw [Memory.wf_iff] at h2 ⊢
  refine ⟨Sparse.sorted_filter _ _ h2.1, ?_⟩
  intro e he
  obtain ⟨hm, ho⟩ := List.mem_filter.mp he
  have hc : (dramChan e.1).val ≠ ch.val := by
    intro c
    simp [Fin.ext c] at ho
  have same : (m.mem.loseChan ch).dramDefault e.1 = m.mem.dramDefault e.1 := by
    unfold MemSys.dramDefault MemSys.loseChan
    rw [List.any_map]
    congr 3
    funext z
    simp [hc]
  exact fun he' => h2.2 e hm (he'.trans same)

end Sys2Proof.Machine
end

