-- ==== Sys2Proof/Laws/Ops.lean ====
section
/-! SUPPORT. What the shared operations do, said once: a command answers a next state and moves only the machine proper, outside the six
rows that can blow fuses; a write of the dictionary is refused, done, or done and answered later; events, log, faults, queue pairs,
pools; the memory operations of resets and windows keep the canonical form. -/

namespace Sys2Proof.Machine

open Sys2Proof

/-! ### Commands and steps -/

/-- The rows by which a fuse can be blown: the three of chapter 14, and the writes of any object. -/
def blowsFuses : Instr → Bool
  | .ownerKeyEnroll _ _ | .secureBootFuseCommit _ _ | .rollbackAdvance _ _ | .registerWrite _ _ _ _ | .usdoWrite _ _ _ _
  | .mgmtWrite _ _ _ => true
  | _ => false

theorem State.onMach_onMach (s : State) (f g : Mach → Mach) : (s.onMach f).onMach g = s.onMach fun m => g (f m) := rfl

theorem State.mgmtIn_onMach (s : State) (c : CtxId) (msg : Bytes) (ce : Bool) (f : State → State)
    (h : ∀ t : State, ∃ g : Mach → Mach, f t = t.onMach g) : ∃ g : Mach → Mach, s.mgmtIn c msg ce f = s.onMach g := by
  unfold State.mgmtIn
  dsimp only
  split
  · exact ⟨id, rfl⟩
  · split
    · exact ⟨_, rfl⟩
    · split
      · exact ⟨_, rfl⟩
      · split
        · obtain ⟨g, hg⟩ := h (s.onMach fun m => m.qpRecv c qMgmt ce msg.length 0 fun m =>
            (m.psnRx c qMgmt msg.length).send (.rcAck c qMgmt))
          exact ⟨_, hg.trans (State.onMach_onMach s _ g)⟩
        · exact ⟨_, State.onMach_onMach s _ _⟩

/-- Every other command is a change of the machine proper. -/
theorem exec_onMach (i : Instr) (s : State) (h : blowsFuses i = false) : ∃ f : Mach → Mach, exec i s = .next (s.onMach f) := by
  cases i <;> first | exact ⟨_, rfl⟩ | (simp [blowsFuses] at h; done) | skip
  rename_i c msg ce
  have : ∃ g : Mach → Mach, exec (.mgmtRead c msg ce) s = .next (s.onMach g) := by
    simp only [exec, execMgmtRead]
    split
    · exact ⟨id, rfl⟩
    · obtain ⟨g, hg⟩ := State.mgmtIn_onMach s c msg ce _ fun t => ⟨_, rfl⟩
      exact ⟨g, congrArg Host.Outcome.next hg⟩
  exact this

/-- A command answers a next state. -/
theorem exec_next (i : Instr) (s : State) : ∃ t, exec i s = .next t := by
  by_cases h : blowsFuses i = false
  · obtain ⟨f, hf⟩ := exec_onMach i s h
    exact ⟨_, hf⟩
  · cases i <;> exact ⟨_, rfl⟩

/-- Outside the six rows no fuse changes. -/
theorem exec_fuses (i : Instr) (s t : State) (h : blowsFuses i = false) (e : exec i s = .next t) : t.fuses = s.fuses ∧ t.pending = s.pending := by
  obtain ⟨f, hf⟩ := exec_onMach i s h
  rw [hf] at e
  cases e
  exact ⟨rfl, rfl⟩

theorem step_cons (i : Instr) (rest : List Instr) (s : State) (h : s.pending = i :: rest) : step s = exec i { s with pending := rest } := by
  unfold step
  rw [h]

theorem step_nil (s : State) (h : s.pending = []) : step s = .next (tick s) := by
  unfold step
  rw [h]

/-! ### Writes of the dictionary (R347) -/

theorem Mach.dictWrite_down (m : Mach) (ch : Channel) (i k : Nat) (b : Bytes) (w : Writer) (h : m.chanUp ch = false) :
    m.dictWrite ch i k b w = m := by
  simp [Mach.dictWrite, h]

theorem Mach.dictWrite_refused (m : Mach) (ch : Channel) (i k : Nat) (b : Bytes) (w : Writer) (e : Nat) (h : m.chanUp ch = true)
    (c : m.checkWrite ch i k b = .error e) : m.dictWrite ch i k b w = m.refused (wroteOut ch i k) e := by
  simp [Mach.dictWrite, Mach.writeWith, h, c]

theorem Mach.dictWrite_err (m : Mach) (ch : Channel) (i k : Nat) (b : Bytes) (w : Writer) (r : ObjRow) (e : Nat) (h : m.chanUp ch = true)
    (c : m.checkWrite ch i k b = .ok r) (g : boolGate r w m ch (r.ty.value b) = .err e) :
    m.dictWrite ch i k b w = m.refused (wroteOut ch i k) e := by
  simp [Mach.dictWrite, Mach.writeWith, h, c, g]

theorem Mach.dictWrite_ok (m m' : Mach) (ch : Channel) (i k : Nat) (b : Bytes) (w : Writer) (r : ObjRow) (h : m.chanUp ch = true)
    (c : m.checkWrite ch i k b = .ok r) (g : boolGate r w m ch (r.ty.value b) = .ok m') :
    m.dictWrite ch i k b w = (m'.logWrite ch i k b).reply (wroteOut ch i k 0) := by
  simp [Mach.dictWrite, Mach.writeWith, h, c, g]

theorem Mach.dictWrite_later (m m' : Mach) (ch : Channel) (i k : Nat) (b : Bytes) (w : Writer) (r : ObjRow) (h : m.chanUp ch = true)
    (c : m.checkWrite ch i k b = .ok r) (g : boolGate r w m ch (r.ty.value b) = .later m') :
    m.dictWrite ch i k b w = (m'.logWrite ch i k b).answerLater i (wroteOut ch i k 0) := by
  simp [Mach.dictWrite, Mach.writeWith, h, c, g]

/-- The answer to a write that does not go out on a management QP is a message and nothing more. -/
theorem Mach.reply_wrote (m : Mach) (ch : Channel) (i k e : Nat) : m.reply (wroteOut ch i k e) = m.send (wroteOut ch i k e) := rfl

theorem Mach.refused_wrote (m : Mach) (ch : Channel) (i k e : Nat) :
    m.refused (wroteOut ch i k) e = (m.cnt 0xF005 133).send (wroteOut ch i k e) := rfl

/-- A gate that is not a BOOLEAN's is the writer itself. -/
theorem boolGate_plain (r : ObjRow) (w : Writer) (m : Mach) (ch : Channel) (v : Val) (h : r.ty ≠ .bool) : boolGate r w m ch v = w m ch v := by
  simp [boolGate, h]

/-- A BOOLEAN's 1 reaches the writer. -/
theorem boolGate_one (r : ObjRow) (w : Writer) (m : Mach) (ch : Channel) (v : Val) (h : v.toNum = 1) : boolGate r w m ch v = w m ch v := by
  simp [boolGate, h]

theorem Wr.guard_false (code : Nat) (r : Wr) : Wr.guard false code r = r := rfl
theorem Wr.guard_true (code : Nat) (r : Wr) : Wr.guard true code r = .err code := rfl

/-! ### Events, log, emergency messages (R358 to R364) -/

/-- What n occurrences at an island do to one counter. -/
theorem Mach.count_get (m : Mach) (o : Occ) (n : Nat) (k : CounterId) :
    (m.count o n).counters[k] = if m.netState = .stopped ∨ n = 0 ∨ m.counting o.isl = false then m.counters[k]
      else if (m.counters[k]).counts o then (m.counters[k]).add n else m.counters[k] := by
  unfold Mach.count
  simp only [Bool.not_eq_true']
  split <;> simp

theorem Mach.logAdd_room (m : Mach) (event severity detail : Nat) (b : Bytes) (st : Nat) (c : Option CtxId) (isl src : Nat)
    (h : m.log.queue.length < 4096) : (m.logAdd event severity detail b st c isl src).log = { m.log with
      queue := m.log.queue ++ [⟨BitVec.ofNat 16 event, BitVec.ofNat 8 st, BitVec.ofNat 32 detail, severity, c, BitVec.ofNat 8 isl,
        BitVec.ofNat 16 src, m.pwr.bootCount, m.log.nextSeq, m.now, b⟩], nextSeq := m.log.nextSeq + 1 } ∧
      (m.logAdd event severity detail b st c isl src).counters = m.counters := by
  simp [Mach.logAdd, h]

/-! ### Contexts (R146, R148) -/

theorem Mach.setCtxState_get (m : Mach) (c d : CtxId) (st : CtxState) (cause : HaltCause) :
    (m.setCtxState c st cause).ctxs[d] =
      if c = d then { m.ctxs[d] with st := st, cause := cause }.noted m.nextInLine else m.ctxs[d] := by
  unfold Mach.setCtxState
  have e : (c.val = d.val) = (c = d) := by rw [Fin.ext_iff]
  dsimp only
  split <;> simp [Mach.modCtx, e]

/-- No slot of a context that is not ENABLED may start. -/
theorem Ctx.readyHead_stopped (x : Ctx) (e : Eng) (h : x.st ≠ .enabled) : x.readyHead e = none := by
  unfold Ctx.readyHead
  split <;> simp [h]

/-- None of its slots stands in the line. -/
theorem Ctx.noted_stopped (x : Ctx) (n : Nat) (h : x.st ≠ .enabled) : x.noted n = { x with line := [] } := by
  simp [Ctx.noted, Ctx.readyHead_stopped x _ h]

/-- A fault of a running context: HALTING with the fault kept; any other context stays as it was. -/
theorem Mach.faultCtx_get (m : Mach) (c d : CtxId) (i : FaultInfo) (h : (m.ctxs[c]).st = .enabled) :
    (m.faultCtx c i).ctxs[d] =
      if c = d then { m.ctxs[d] with st := .halting, cause := .fault, pendingFault := some i, faultEng := i.eng, line := [] }
      else m.ctxs[d] := by
  have h' : (m.ctxs[c]).st = .enabled ∨ ((m.ctxs[c]).st = .halting ∧ (m.ctxs[c]).cause ≠ .fault) := Or.inl h
  have e : (c.val = d.val) = (c = d) := by rw [Fin.ext_iff]
  unfold Mach.faultCtx
  dsimp only
  rw [if_pos h']
  have s := Mach.setCtxState_get m c d .halting .fault
  simp only [Fin.getElem_fin] at s ⊢
  simp only [Mach.modCtx_ctxs, Vec.upd_get, s, e]
  split
  · rw [Ctx.noted_stopped _ _ (by simp), Ctx.noted_stopped _ _ (by simp)]
  · rfl

/-- Nothing happens to a context that is not running. -/
theorem Mach.faultCtx_other (m : Mach) (c : CtxId) (i : FaultInfo) (h : (m.ctxs[c]).st ≠ .enabled) (g : (m.ctxs[c]).st ≠ .halting) :
    m.faultCtx c i = m := by
  unfold Mach.faultCtx
  simp only [h, g, false_and, or_self, if_false]

/-! ### Queue pairs (R281) -/

theorem Mach.qpRecv_down (m : Mach) (c : CtxId) (q : QpNo) (ce : Bool) (n ext : Nat) (f : Mach → Mach) (h : m.hostUp = false) :
    m.qpRecv c q ce n ext f = m := by
  simp [Mach.qpRecv, h]

/-- In RTS, and within host_mtu, a message is handled; a packet marked CE is answered with a CNP first. -/
theorem Mach.qpRecv_open (m : Mach) (c : CtxId) (q : QpNo) (ce : Bool) (n ext : Nat) (f : Mach → Mach)
    (h : m.qpTakes c q n ext = true) : m.qpRecv c q ce n ext f = f ((m.wake [101]).ceMark c q ce) := by
  simp only [Mach.qpTakes, Bool.and_eq_true, decide_eq_true_eq] at h
  unfold Mach.qpRecv
  rw [h.1.1, h.2]
  simp [h.1.2]

/-- A message that goes out at once: the link is up and its class is not paused. -/
theorem Mach.send_now (m : Mach) (o : Out) (u : m.host.mode < 3) (p : m.holds o = false) : m.send o = { m with out := m.wire o :: m.out } := by
  simp [Mach.send, Nat.not_le.mpr u, p]

/-- A message that no QP sends leaves at once. -/
theorem Mach.send_plain (m : Mach) (o : Out) (q : o.qp = none) : m.send o = { m with out := m.wire o :: m.out } := by
  simp [Mach.send, Mach.holds, q]

/-- Each QP has its own local QP number (R280). -/
theorem qpOfNumber_qpNumber (c : CtxId) (q : QpNo) : qpOfNumber (qpNumber c q) = some (c, q) := by
  revert c q
  decide

theorem Mach.ceMark_none (m : Mach) (c : CtxId) (q : QpNo) : m.ceMark c q false = m := by
  simp [Mach.ceMark]

/-! ### Buffer pools (R111, R112) -/

theorem Mach.bpmAsk_granted (m : Mach) (p : PoolId) (q : BpmReq) (h : (m.pools[p]).waiting = []) (f : m.bpmFits p q.who q.n = true) :
    m.bpmAsk p q = (m.bpmReserve p q.who q.n, true) := by
  unfold Mach.bpmAsk
  rw [if_pos ⟨h, f⟩]

theorem Mach.bpmAsk_waits (m : Mach) (p : PoolId) (q : BpmReq) (f : m.bpmFits p q.who q.n = false) :
    m.bpmAsk p q = (m.modPool p fun x => { x with waiting := x.waiting ++ [q] }, false) := by
  unfold Mach.bpmAsk
  rw [if_neg (by rw [f]; simp)]

/-! ### Packets (R242, R262) -/

/-- An answer of the module joins what waits for injection, behind everything else. -/
theorem Mach.ack_net (m : Mach) (h : Hdr) (st : Nat) : (m.ack h st).net = { m.net with inject := m.net.inject ++ m.held (ackHdr h st) [] } := rfl

/-! ### The canonical form of the memories -/

theorem Mach.memWf_loseSpad (m : Mach) (h : m.memWf) : m.loseSpad.memWf := ⟨Memory.wf_nil _, h.2⟩

theorem Mach.memWf_loseDram (m : Mach) (h : m.memWf) : m.loseDram.memWf := ⟨h.1, Memory.wf_nil _⟩

theorem Mach.memWf_spadZero (m : Mach) (a n : Nat) (h : m.memWf) : (m.spadZero a n).memWf := ⟨Memory.wf_filter _ _ _ h.1, h.2⟩

end Sys2Proof.Machine
end

