-- ==== Sys2Proof/Laws/PerInstr.lean ====
section
/-! SUPPORT. A fact of every command as syntax, one lemma per constructor: only the rows named by `checked` have an operand that can be
ill formed, so a command that the well-formedness check refuses is one of them. -/

namespace Sys2Proof.Laws.Bounds

open Sys2Proof

/-- The rows whose operands the well-formedness check looks at. -/
def checked : Instr → Bool
  | .windowWrite _ _ _ _ | .codewordReceive _ _ | .baseAlignComplete _ _ _ _ | .linkEvent _ _ | .neighbourSolicitation _ _
  | .trainingFrame _ _ | .equaliseConverged _ _ | .echoRequest _ _ _ | .pfcFrame _ _ | .dramTrained _ | .usdoRead _ _ | .usdoWrite _ _ _ _ | .registerWrite _ _ _ _ => true
  | _ => false

/-- A command is well formed, or of a row that is checked. -/
def Statement (i : Instr) : Prop := i.wf = true ∨ checked i = true

theorem islandGateRequest : ∀ x0, Statement (.islandGateRequest x0) := by intros; exact .inl rfl
theorem islandGateGrant : ∀ x0, Statement (.islandGateGrant x0) := by intros; exact .inl rfl
theorem islandGateTimeout : ∀ x0, Statement (.islandGateTimeout x0) := by intros; exact .inl rfl
theorem islandWake : ∀ x0, Statement (.islandWake x0) := by intros; exact .inl rfl
theorem islandPowerOff : ∀ x0, Statement (.islandPowerOff x0) := by intros; exact .inl rfl
theorem islandPowerOn : ∀ x0, Statement (.islandPowerOn x0) := by intros; exact .inl rfl
theorem islandPowerOnDone : ∀ x0, Statement (.islandPowerOnDone x0) := by intros; exact .inl rfl
theorem islandDerate : ∀ x0 x1 x2, Statement (.islandDerate x0 x1 x2) := by intros; exact .inl rfl
theorem derateApply : ∀ x0, Statement (.derateApply x0) := by intros; exact .inl rfl
theorem priorityClass : ∀ x0 x1 x2, Statement (.priorityClass x0 x1 x2) := by intros; exact .inl rfl
theorem commandSend : ∀ x0 x1 x2, Statement (.commandSend x0 x1 x2) := by intros; exact .inl rfl
theorem wordDispatch : ∀ x0, Statement (.wordDispatch x0) := by intros; exact .inl rfl
theorem sync : ∀ x0 x1, Statement (.sync x0 x1) := by intros; exact .inl rfl
theorem load : ∀ x0, Statement (.load x0) := by intros; exact .inl rfl
theorem store : ∀ x0, Statement (.store x0) := by intros; exact .inl rfl
theorem copy : ∀ x0, Statement (.copy x0) := by intros; exact .inl rfl
theorem dcopy : ∀ x0, Statement (.dcopy x0) := by intros; exact .inl rfl
theorem put : ∀ x0, Statement (.put x0) := by intros; exact .inl rfl
theorem get : ∀ x0, Statement (.get x0) := by intros; exact .inl rfl
theorem hostIn : ∀ x0, Statement (.hostIn x0) := by intros; exact .inl rfl
theorem hostOut : ∀ x0, Statement (.hostOut x0) := by intros; exact .inl rfl
theorem movePiece : ∀ x0, Statement (.movePiece x0) := by intros; exact .inl rfl
theorem moveComplete : ∀ x0 x1, Statement (.moveComplete x0 x1) := by intros; exact .inl rfl
theorem moveRetryTimeout : ∀ x0, Statement (.moveRetryTimeout x0) := by intros; exact .inl rfl
theorem array : ∀ x0 x1 x2, Statement (.array x0 x1 x2) := by intros; exact .inl rfl
theorem frozen : ∀ x0, Statement (.frozen x0) := by intros; exact .inl rfl
theorem arrayCommit : ∀ x0, Statement (.arrayCommit x0) := by intros; exact .inl rfl
theorem arraySuspend : ∀ x0, Statement (.arraySuspend x0) := by intros; exact .inl rfl
theorem arrayResume : ∀ x0, Statement (.arrayResume x0) := by intros; exact .inl rfl
theorem vectorCopy : ∀ x0 x1, Statement (.vectorCopy x0 x1) := by intros; exact .inl rfl
theorem add : ∀ x0 x1, Statement (.add x0 x1) := by intros; exact .inl rfl
theorem sub : ∀ x0 x1, Statement (.sub x0 x1) := by intros; exact .inl rfl
theorem mul : ∀ x0 x1, Statement (.mul x0 x1) := by intros; exact .inl rfl
theorem div : ∀ x0 x1, Statement (.div x0 x1) := by intros; exact .inl rfl
theorem fma : ∀ x0 x1, Statement (.fma x0 x1) := by intros; exact .inl rfl
theorem axpby : ∀ x0 x1, Statement (.axpby x0 x1) := by intros; exact .inl rfl
theorem max : ∀ x0 x1, Statement (.max x0 x1) := by intros; exact .inl rfl
theorem min : ∀ x0 x1, Statement (.min x0 x1) := by intros; exact .inl rfl
theorem scale : ∀ x0 x1, Statement (.scale x0 x1) := by intros; exact .inl rfl
theorem cast : ∀ x0 x1, Statement (.cast x0 x1) := by intros; exact .inl rfl
theorem relu : ∀ x0 x1, Statement (.relu x0 x1) := by intros; exact .inl rfl
theorem gelu : ∀ x0 x1, Statement (.gelu x0 x1) := by intros; exact .inl rfl
theorem silu : ∀ x0 x1, Statement (.silu x0 x1) := by intros; exact .inl rfl
theorem reluBwd : ∀ x0 x1, Statement (.reluBwd x0 x1) := by intros; exact .inl rfl
theorem geluBwd : ∀ x0 x1, Statement (.geluBwd x0 x1) := by intros; exact .inl rfl
theorem siluBwd : ∀ x0 x1, Statement (.siluBwd x0 x1) := by intros; exact .inl rfl
theorem exp : ∀ x0 x1, Statement (.exp x0 x1) := by intros; exact .inl rfl
theorem log : ∀ x0 x1, Statement (.log x0 x1) := by intros; exact .inl rfl
theorem rsqrt : ∀ x0 x1, Statement (.rsqrt x0 x1) := by intros; exact .inl rfl
theorem sqrt : ∀ x0 x1, Statement (.sqrt x0 x1) := by intros; exact .inl rfl
theorem recip : ∀ x0 x1, Statement (.recip x0 x1) := by intros; exact .inl rfl
theorem tanh : ∀ x0 x1, Statement (.tanh x0 x1) := by intros; exact .inl rfl
theorem sigmoid : ∀ x0 x1, Statement (.sigmoid x0 x1) := by intros; exact .inl rfl
theorem erf : ∀ x0 x1, Statement (.erf x0 x1) := by intros; exact .inl rfl
theorem softmax : ∀ x0 x1, Statement (.softmax x0 x1) := by intros; exact .inl rfl
theorem layernorm : ∀ x0 x1, Statement (.layernorm x0 x1) := by intros; exact .inl rfl
theorem rmsnorm : ∀ x0 x1, Statement (.rmsnorm x0 x1) := by intros; exact .inl rfl
theorem rowdot : ∀ x0 x1, Statement (.rowdot x0 x1) := by intros; exact .inl rfl
theorem softmaxBwd : ∀ x0 x1, Statement (.softmaxBwd x0 x1) := by intros; exact .inl rfl
theorem layernormBwd : ∀ x0 x1, Statement (.layernormBwd x0 x1) := by intros; exact .inl rfl
theorem rmsnormBwd : ∀ x0 x1, Statement (.rmsnormBwd x0 x1) := by intros; exact .inl rfl
theorem rsum : ∀ x0 x1, Statement (.rsum x0 x1) := by intros; exact .inl rfl
theorem rmax : ∀ x0 x1, Statement (.rmax x0 x1) := by intros; exact .inl rfl
theorem csum : ∀ x0 x1, Statement (.csum x0 x1) := by intros; exact .inl rfl
theorem sumsq : ∀ x0 x1, Statement (.sumsq x0 x1) := by intros; exact .inl rfl
theorem adam : ∀ x0 x1, Statement (.adam x0 x1) := by intros; exact .inl rfl
theorem sgdm : ∀ x0 x1, Statement (.sgdm x0 x1) := by intros; exact .inl rfl
theorem clipFactor : ∀ x0 x1, Statement (.clipFactor x0 x1) := by intros; exact .inl rfl
theorem dropout : ∀ x0 x1, Statement (.dropout x0 x1) := by intros; exact .inl rfl
theorem iadd : ∀ x0 x1, Statement (.iadd x0 x1) := by intros; exact .inl rfl
theorem isub : ∀ x0 x1, Statement (.isub x0 x1) := by intros; exact .inl rfl
theorem imul : ∀ x0 x1, Statement (.imul x0 x1) := by intros; exact .inl rfl
theorem vectorCommit : ∀ x0, Statement (.vectorCommit x0) := by intros; exact .inl rfl
theorem allReduce : ∀ x0, Statement (.allReduce x0) := by intros; exact .inl rfl
theorem reduceScatter : ∀ x0, Statement (.reduceScatter x0) := by intros; exact .inl rfl
theorem allGather : ∀ x0, Statement (.allGather x0) := by intros; exact .inl rfl
theorem broadcast : ∀ x0, Statement (.broadcast x0) := by intros; exact .inl rfl
theorem reduce : ∀ x0, Statement (.reduce x0) := by intros; exact .inl rfl
theorem barrier : ∀ x0, Statement (.barrier x0) := by intros; exact .inl rfl
theorem scalarAllReduce : ∀ x0, Statement (.scalarAllReduce x0) := by intros; exact .inl rfl
theorem collectiveAdmit : ∀ x0, Statement (.collectiveAdmit x0) := by intros; exact .inl rfl
theorem shuttleAdmitTimeout : ∀ x0, Statement (.shuttleAdmitTimeout x0) := by intros; exact .inl rfl
theorem shuttleScale : Statement .shuttleScale := .inl rfl
theorem shuttleResult : Statement .shuttleResult := .inl rfl
theorem shuttleData : Statement .shuttleData := .inl rfl
theorem shuttleAck : Statement .shuttleAck := .inl rfl
theorem shuttleNack : Statement .shuttleNack := .inl rfl
theorem shuttleScalar : Statement .shuttleScalar := .inl rfl
theorem shuttleAbort : Statement .shuttleAbort := .inl rfl
theorem shuttleStale : Statement .shuttleStale := .inl rfl
theorem bobbinResend : ∀ x0, Statement (.bobbinResend x0) := by intros; exact .inl rfl
theorem handshakeResend : ∀ x0, Statement (.handshakeResend x0) := by intros; exact .inl rfl
theorem shuttleProgressTimeout : ∀ x0, Statement (.shuttleProgressTimeout x0) := by intros; exact .inl rfl
theorem collectiveCommit : ∀ x0, Statement (.collectiveCommit x0) := by intros; exact .inl rfl
theorem defineGroup : ∀ x0, Statement (.defineGroup x0) := by intros; exact .inl rfl
theorem releaseGroup : ∀ x0, Statement (.releaseGroup x0) := by intros; exact .inl rfl
theorem setSeed : ∀ x0, Statement (.setSeed x0) := by intros; exact .inl rfl
theorem setStep : ∀ x0, Statement (.setStep x0) := by intros; exact .inl rfl
theorem digestWords : ∀ x0, Statement (.digestWords x0) := by intros; exact .inl rfl
theorem digestRegion : ∀ x0, Statement (.digestRegion x0) := by intros; exact .inl rfl
theorem snapCounters : ∀ x0, Statement (.snapCounters x0) := by intros; exact .inl rfl
theorem stripeWrite : ∀ x0, Statement (.stripeWrite x0) := by intros; exact .inl rfl
theorem read : ∀ x0, Statement (.read x0) := by intros; exact .inl rfl
theorem retireGeneration : ∀ x0, Statement (.retireGeneration x0) := by intros; exact .inl rfl
theorem stripeWriteCommit : ∀ x0 x1, Statement (.stripeWriteCommit x0 x1) := by intros; exact .inl rfl
theorem vaultStripeTimeout : ∀ x0, Statement (.vaultStripeTimeout x0) := by intros; exact .inl rfl
theorem vaultSpaceTimeout : ∀ x0, Statement (.vaultSpaceTimeout x0) := by intros; exact .inl rfl
theorem tokenPost : ∀ x0 x1 x2, Statement (.tokenPost x0 x1 x2) := by intros; exact .inl rfl
theorem tokenDeadlock : ∀ x0, Statement (.tokenDeadlock x0) := by intros; exact .inl rfl
theorem orderedCompletionRelease : ∀ x0, Statement (.orderedCompletionRelease x0) := by intros; exact .inl rfl
theorem halt : ∀ x0 x1 x2, Statement (.halt x0 x1 x2) := by intros; exact .inl rfl
theorem contextHalted : ∀ x0, Statement (.contextHalted x0) := by intros; exact .inl rfl
theorem resume : ∀ x0 x1 x2, Statement (.resume x0 x1 x2) := by intros; exact .inl rfl
theorem abortFromSeq : ∀ x0 x1 x2, Statement (.abortFromSeq x0 x1 x2) := by intros; exact .inl rfl
theorem contextReset : ∀ x0 x1 x2, Statement (.contextReset x0 x1 x2) := by intros; exact .inl rfl
theorem contextResetDone : ∀ x0, Statement (.contextResetDone x0) := by intros; exact .inl rfl
theorem contextEnable : ∀ x0 x1, Statement (.contextEnable x0 x1) := by intros; exact .inl rfl
theorem contextDisable : ∀ x0 x1, Statement (.contextDisable x0 x1) := by intros; exact .inl rfl
theorem windowWrite : ∀ x0 x1 x2 x3, Statement (.windowWrite x0 x1 x2 x3) := by intros; exact .inr rfl
theorem windowZeroDone : ∀ x0, Statement (.windowZeroDone x0) := by intros; exact .inl rfl
theorem recordWrite : ∀ x0, Statement (.recordWrite x0) := by intros; exact .inl rfl
theorem ringCredit : ∀ x0 x1 x2, Statement (.ringCredit x0 x1 x2) := by intros; exact .inl rfl
theorem hostRingStallTimeout : ∀ x0, Statement (.hostRingStallTimeout x0) := by intros; exact .inl rfl
theorem bpmGrant : ∀ x0, Statement (.bpmGrant x0) := by intros; exact .inl rfl
theorem bpmQuotaWaitTimeout : ∀ x0, Statement (.bpmQuotaWaitTimeout x0) := by intros; exact .inl rfl
theorem bpmIncrement : ∀ x0 x1 x2, Statement (.bpmIncrement x0 x1 x2) := by intros; exact .inl rfl
theorem bpmDecrement : ∀ x0 x1, Statement (.bpmDecrement x0 x1) := by intros; exact .inl rfl
theorem codewordReceive : ∀ x0 x1, Statement (.codewordReceive x0 x1) := by intros; exact .inr rfl
theorem linkAckTimeout : ∀ x0, Statement (.linkAckTimeout x0) := by intros; exact .inl rfl
theorem linkRetrainHoldExpiry : ∀ x0, Statement (.linkRetrainHoldExpiry x0) := by intros; exact .inl rfl
theorem linkCwBadLimit : ∀ x0, Statement (.linkCwBadLimit x0) := by intros; exact .inl rfl
theorem linkEnable : ∀ x0 x1, Statement (.linkEnable x0 x1) := by intros; exact .inl rfl
theorem linkDisable : ∀ x0 x1, Statement (.linkDisable x0 x1) := by intros; exact .inl rfl
theorem linkSignalDetect : ∀ x0, Statement (.linkSignalDetect x0) := by intros; exact .inl rfl
theorem lossOfSignal : ∀ x0, Statement (.lossOfSignal x0) := by intros; exact .inl rfl
theorem baseAlignComplete : ∀ x0 x1 x2 x3, Statement (.baseAlignComplete x0 x1 x2 x3) := by intros; exact .inr rfl
theorem trainingFrame : ∀ x0 x1, Statement (.trainingFrame x0 x1) := by intros; exact .inr rfl
theorem equaliseConverged : ∀ x0 x1, Statement (.equaliseConverged x0 x1) := by intros; exact .inr rfl
theorem linkCheckEnd : ∀ x0, Statement (.linkCheckEnd x0) := by intros; exact .inl rfl
theorem checkBlock : ∀ x0 x1, Statement (.checkBlock x0 x1) := by intros; exact .inl rfl
theorem rateStepSwitch : ∀ x0, Statement (.rateStepSwitch x0) := by intros; exact .inl rfl
theorem rateStepLocked : ∀ x0, Statement (.rateStepLocked x0) := by intros; exact .inl rfl
theorem linkTrainTimeout : ∀ x0, Statement (.linkTrainTimeout x0) := by intros; exact .inl rfl
theorem l1IdleTimeout : ∀ x0, Statement (.l1IdleTimeout x0) := by intros; exact .inl rfl
theorem l1Req : ∀ x0, Statement (.l1Req x0) := by intros; exact .inl rfl
theorem l1Ack : ∀ x0, Statement (.l1Ack x0) := by intros; exact .inl rfl
theorem l1Nak : ∀ x0, Statement (.l1Nak x0) := by intros; exact .inl rfl
theorem l1Keepalive : ∀ x0, Statement (.l1Keepalive x0) := by intros; exact .inl rfl
theorem l1Exit : ∀ x0, Statement (.l1Exit x0) := by intros; exact .inl rfl
theorem powerRequestLs : ∀ x0 x1, Statement (.powerRequestLs x0 x1) := by intros; exact .inl rfl
theorem powerRequestL0 : ∀ x0 x1, Statement (.powerRequestL0 x0 x1) := by intros; exact .inl rfl
theorem lsReq : ∀ x0, Statement (.lsReq x0) := by intros; exact .inl rfl
theorem lsAck : ∀ x0, Statement (.lsAck x0) := by intros; exact .inl rfl
theorem lsNak : ∀ x0, Statement (.lsNak x0) := by intros; exact .inl rfl
theorem lsWake : ∀ x0, Statement (.lsWake x0) := by intros; exact .inl rfl
theorem lsWakeTimeout : ∀ x0, Statement (.lsWakeTimeout x0) := by intros; exact .inl rfl
theorem testMode : ∀ x0 x1 x2, Statement (.testMode x0 x1 x2) := by intros; exact .inl rfl
theorem inject : ∀ x0 x1 x2, Statement (.inject x0 x1 x2) := by intros; exact .inl rfl
theorem linkReset : ∀ x0 x1 x2, Statement (.linkReset x0 x1 x2) := by intros; exact .inl rfl
theorem packetReceive : ∀ x0, Statement (.packetReceive x0) := by intros; exact .inl rfl
theorem packetForward : ∀ x0 x1, Statement (.packetForward x0 x1) := by intros; exact .inl rfl
theorem linkOutputArbitrate : ∀ x0, Statement (.linkOutputArbitrate x0) := by intros; exact .inl rfl
theorem bundleReseqTimeout : ∀ x0 x1, Statement (.bundleReseqTimeout x0 x1) := by intros; exact .inl rfl
theorem putReceive : Statement .putReceive := .inl rfl
theorem getReceive : Statement .getReceive := .inl rfl
theorem getRspReceive : Statement .getRspReceive := .inl rfl
theorem ackReceive : Statement .ackReceive := .inl rfl
theorem tokenReceive : Statement .tokenReceive := .inl rfl
theorem mgtReceive : Statement .mgtReceive := .inl rfl
theorem linkEvent : ∀ x0 x1, Statement (.linkEvent x0 x1) := by intros; exact .inr rfl
theorem routeBuilt : Statement .routeBuilt := .inl rfl
theorem routeSwitch : ∀ x0, Statement (.routeSwitch x0) := by intros; exact .inl rfl
theorem routeRebuildTimeout : Statement .routeRebuildTimeout := .inl rfl
theorem planCommit : ∀ x0 x1, Statement (.planCommit x0 x1) := by intros; exact .inl rfl
theorem rankMapCommit : ∀ x0 x1 x2, Statement (.rankMapCommit x0 x1 x2) := by intros; exact .inl rfl
theorem foldBinding : ∀ x0 x1 x2, Statement (.foldBinding x0 x1 x2) := by intros; exact .inl rfl
theorem foldAccept : ∀ x0 x1 x2, Statement (.foldAccept x0 x1 x2) := by intros; exact .inl rfl
theorem foldWaitTimeout : ∀ x0, Statement (.foldWaitTimeout x0) := by intros; exact .inl rfl
theorem isolate : ∀ x0 x1 x2, Statement (.isolate x0 x1 x2) := by intros; exact .inl rfl
theorem hostModeRequest : ∀ x0 x1, Statement (.hostModeRequest x0 x1) := by intros; exact .inl rfl
theorem hostLinkUp : Statement .hostLinkUp := .inl rfl
theorem hostLinkUpTimeout : Statement .hostLinkUpTimeout := .inl rfl
theorem pfcFrame : ∀ x0 x1, Statement (.pfcFrame x0 x1) := by intros; exact .inr rfl
theorem arpRequest : ∀ x0 x1, Statement (.arpRequest x0 x1) := by intros; exact .inl rfl
theorem neighbourSolicitation : ∀ x0 x1, Statement (.neighbourSolicitation x0 x1) := by intros; exact .inr rfl
theorem echoRequest : ∀ x0 x1 x2, Statement (.echoRequest x0 x1 x2) := by intros; exact .inr rfl
theorem cnp : ∀ x0 x1, Statement (.cnp x0 x1) := by intros; exact .inl rfl
theorem rateRecover : ∀ x0 x1, Statement (.rateRecover x0 x1) := by intros; exact .inl rfl
theorem rdmaWrite : ∀ x0 x1 x2 x3 x4 x5, Statement (.rdmaWrite x0 x1 x2 x3 x4 x5) := by intros; exact .inl rfl
theorem rdmaRead : ∀ x0 x1 x2 x3 x4 x5, Statement (.rdmaRead x0 x1 x2 x3 x4 x5) := by intros; exact .inl rfl
theorem rdmaReadResponse : ∀ x0 x1 x2 x3, Statement (.rdmaReadResponse x0 x1 x2 x3) := by intros; exact .inl rfl
theorem rcAck : ∀ x0 x1, Statement (.rcAck x0 x1) := by intros; exact .inl rfl
theorem rcNak : ∀ x0 x1 x2, Statement (.rcNak x0 x1 x2) := by intros; exact .inl rfl
theorem rcAckTimeout : ∀ x0 x1, Statement (.rcAckTimeout x0 x1) := by intros; exact .inl rfl
theorem mgmtRead : ∀ x0 x1 x2, Statement (.mgmtRead x0 x1 x2) := by intros; exact .inl rfl
theorem mgmtWrite : ∀ x0 x1 x2, Statement (.mgmtWrite x0 x1 x2) := by intros; exact .inl rfl
theorem qpConnect : ∀ x0 x1 x2 x3, Statement (.qpConnect x0 x1 x2 x3) := by intros; exact .inl rfl
theorem qpReset : ∀ x0 x1 x2 x3, Statement (.qpReset x0 x1 x2 x3) := by intros; exact .inl rfl
theorem mwCreate : ∀ x0 x1 x2 x3, Statement (.mwCreate x0 x1 x2 x3) := by intros; exact .inl rfl
theorem mwDestroy : ∀ x0 x1 x2 x3, Statement (.mwDestroy x0 x1 x2 x3) := by intros; exact .inl rfl
theorem stepBoundary : ∀ x0, Statement (.stepBoundary x0) := by intros; exact .inl rfl
theorem ckptBarrierStart : ∀ x0 x1, Statement (.ckptBarrierStart x0 x1) := by intros; exact .inl rfl
theorem patchCopy : ∀ x0 x1, Statement (.patchCopy x0 x1) := by intros; exact .inl rfl
theorem cowStallOverBound : ∀ x0, Statement (.cowStallOverBound x0) := by intros; exact .inl rfl
theorem bulkPutReceive : Statement .bulkPutReceive := .inl rfl
theorem bulkGetReceive : Statement .bulkGetReceive := .inl rfl
theorem buddyRestream : ∀ x0 x1 x2, Statement (.buddyRestream x0 x1 x2) := by intros; exact .inl rfl
theorem ckptRollback : ∀ x0 x1 x2, Statement (.ckptRollback x0 x1 x2) := by intros; exact .inl rfl
theorem rollbackDone : ∀ x0 x1, Statement (.rollbackDone x0 x1) := by intros; exact .inl rfl
theorem ckptAdoptHolder : ∀ x0 x1 x2, Statement (.ckptAdoptHolder x0 x1 x2) := by intros; exact .inl rfl
theorem ckptImportDone : ∀ x0 x1 x2, Statement (.ckptImportDone x0 x1 x2) := by intros; exact .inl rfl
theorem vaultDieFailure : ∀ x0, Statement (.vaultDieFailure x0) := by intros; exact .inl rfl
theorem vaultRebuildDone : Statement .vaultRebuildDone := .inl rfl
theorem vaultRefresh : ∀ x0, Statement (.vaultRefresh x0) := by intros; exact .inl rfl
theorem patrolScrub : ∀ x0 x1, Statement (.patrolScrub x0 x1) := by intros; exact .inl rfl
theorem zqCalibration : ∀ x0, Statement (.zqCalibration x0) := by intros; exact .inl rfl
theorem dramTrained : ∀ x0, Statement (.dramTrained x0) := by intros; exact .inr rfl
theorem moduleScopeError : ∀ x0, Statement (.moduleScopeError x0) := by intros; exact .inl rfl
theorem foldFence : ∀ x0 x1 x2, Statement (.foldFence x0 x1 x2) := by intros; exact .inl rfl
theorem fenceMessage : ∀ x0, Statement (.fenceMessage x0) := by intros; exact .inl rfl
theorem gooseBandTrigger : ∀ x0, Statement (.gooseBandTrigger x0) := by intros; exact .inl rfl
theorem gooseLoadTrigger : Statement .gooseLoadTrigger := .inl rfl
theorem gooseTile : ∀ x0 x1 x2 x3, Statement (.gooseTile x0 x1 x2 x3) := by intros; exact .inl rfl
theorem healthClear : ∀ x0 x1, Statement (.healthClear x0 x1) := by intros; exact .inl rfl
theorem gooseRotationDone : Statement .gooseRotationDone := .inl rfl
theorem suspectMark : ∀ x0 x1, Statement (.suspectMark x0 x1) := by intros; exact .inl rfl
theorem watchdogRestart : Statement .watchdogRestart := .inl rfl
theorem nmtStart : Statement .nmtStart := .inl rfl
theorem nmtStop : Statement .nmtStop := .inl rfl
theorem nmtEnterPreOperational : Statement .nmtEnterPreOperational := .inl rfl
theorem nmtResetNode : Statement .nmtResetNode := .inl rfl
theorem nmtResetCommunication : Statement .nmtResetCommunication := .inl rfl
theorem usdoRead : ∀ x0 x1, Statement (.usdoRead x0 x1) := by intros; exact .inr rfl
theorem usdoWrite : ∀ x0 x1 x2 x3, Statement (.usdoWrite x0 x1 x2 x3) := by intros; exact .inr rfl
theorem usdoSegmentTimeout : Statement .usdoSegmentTimeout := .inl rfl
theorem domainCopyExpiry : ∀ x0, Statement (.domainCopyExpiry x0) := by intros; exact .inl rfl
theorem time : ∀ x0, Statement (.time x0) := by intros; exact .inl rfl
theorem tpdoEventTimer : ∀ x0, Statement (.tpdoEventTimer x0) := by intros; exact .inl rfl
theorem tpdoValueChange : ∀ x0, Statement (.tpdoValueChange x0) := by intros; exact .inl rfl
theorem heartbeat : Statement .heartbeat := .inl rfl
theorem emcySend : Statement .emcySend := .inl rfl
theorem canRxOverrun : ∀ x0, Statement (.canRxOverrun x0) := by intros; exact .inl rfl
theorem canBusOffRecovered : Statement .canBusOffRecovered := .inl rfl
theorem storeParameters : ∀ x0 x1, Statement (.storeParameters x0 x1) := by intros; exact .inl rfl
theorem storeComplete : Statement .storeComplete := .inl rfl
theorem restoreDefaultParameters : ∀ x0 x1, Statement (.restoreDefaultParameters x0 x1) := by intros; exact .inl rfl
theorem counterRun : ∀ x0, Statement (.counterRun x0) := by intros; exact .inl rfl
theorem counterStop : ∀ x0, Statement (.counterStop x0) := by intros; exact .inl rfl
theorem counterFreeze : ∀ x0, Statement (.counterFreeze x0) := by intros; exact .inl rfl
theorem counterClear : ∀ x0, Statement (.counterClear x0) := by intros; exact .inl rfl
theorem counterConfigure : ∀ x0 x1 x2 x3, Statement (.counterConfigure x0 x1 x2 x3) := by intros; exact .inl rfl
theorem sensorPoll : ∀ x0 x1, Statement (.sensorPoll x0 x1) := by intros; exact .inl rfl
theorem sensorStale : ∀ x0, Statement (.sensorStale x0) := by intros; exact .inl rfl
theorem logRecordWrite : Statement .logRecordWrite := .inl rfl
theorem logMirrorCopy : Statement .logMirrorCopy := .inl rfl
theorem sensorPeakClear : ∀ x0 x1, Statement (.sensorPeakClear x0 x1) := by intros; exact .inl rfl
theorem bellwetherClear : ∀ x0 x1, Statement (.bellwetherClear x0 x1) := by intros; exact .inl rfl
theorem fwBegin : ∀ x0, Statement (.fwBegin x0) := by intros; exact .inl rfl
theorem fwEraseComplete : Statement .fwEraseComplete := .inl rfl
theorem fwImage : ∀ x0 x1 x2, Statement (.fwImage x0 x1 x2) := by intros; exact .inl rfl
theorem fwVerify : ∀ x0, Statement (.fwVerify x0) := by intros; exact .inl rfl
theorem fwVerifyComplete : Statement .fwVerifyComplete := .inl rfl
theorem fwStage : ∀ x0, Statement (.fwStage x0) := by intros; exact .inl rfl
theorem fwCancel : ∀ x0, Statement (.fwCancel x0) := by intros; exact .inl rfl
theorem ownerKeyEnroll : ∀ x0 x1, Statement (.ownerKeyEnroll x0 x1) := by intros; exact .inl rfl
theorem secureBootFuseCommit : ∀ x0 x1, Statement (.secureBootFuseCommit x0 x1) := by intros; exact .inl rfl
theorem rollbackAdvance : ∀ x0 x1, Statement (.rollbackAdvance x0 x1) := by intros; exact .inl rfl
theorem boot : Statement .boot := .inl rfl
theorem bootConfirm : Statement .bootConfirm := .inl rfl
theorem quote : ∀ x0, Statement (.quote x0) := by intros; exact .inl rfl
theorem stateRequestActive : ∀ x0, Statement (.stateRequestActive x0) := by intros; exact .inl rfl
theorem stateRequestQuiet : ∀ x0, Statement (.stateRequestQuiet x0) := by intros; exact .inl rfl
theorem stateRequestStandby : ∀ x0, Statement (.stateRequestStandby x0) := by intros; exact .inl rfl
theorem stateRequestMgmtOnly : ∀ x0, Statement (.stateRequestMgmtOnly x0) := by intros; exact .inl rfl
theorem stateTransitionComplete : Statement .stateTransitionComplete := .inl rfl
theorem idleEntry : Statement .idleEntry := .inl rfl
theorem idleWake : Statement .idleWake := .inl rfl
theorem quietWake : Statement .quietWake := .inl rfl
theorem coldReset : ∀ x0, Statement (.coldReset x0) := by intros; exact .inl rfl
theorem powerDown : Statement .powerDown := .inl rfl
theorem resetNAssert : Statement .resetNAssert := .inl rfl
theorem resetNRelease : ∀ x0, Statement (.resetNRelease x0) := by intros; exact .inl rfl
theorem warmResetRequest : ∀ x0, Statement (.warmResetRequest x0) := by intros; exact .inl rfl
theorem datapathResetDramKept : ∀ x0, Statement (.datapathResetDramKept x0) := by intros; exact .inl rfl
theorem datapathResetDramLost : ∀ x0, Statement (.datapathResetDramLost x0) := by intros; exact .inl rfl
theorem managementOnlyReset : ∀ x0, Statement (.managementOnlyReset x0) := by intros; exact .inl rfl
theorem resetBegin : ∀ x0, Statement (.resetBegin x0) := by intros; exact .inl rfl
theorem resetComplete : Statement .resetComplete := .inl rfl
theorem overvoltageTrip : Statement .overvoltageTrip := .inl rfl
theorem powerCapTick : ∀ x0, Statement (.powerCapTick x0) := by intros; exact .inl rfl
theorem thermalThrottleTick : ∀ x0, Statement (.thermalThrottleTick x0) := by intros; exact .inl rfl
theorem thermalTrip : ∀ x0, Statement (.thermalTrip x0) := by intros; exact .inl rfl
theorem registerWrite : ∀ x0 x1 x2 x3, Statement (.registerWrite x0 x1 x2 x3) := by intros; exact .inr rfl
theorem hostLinkDown : Statement .hostLinkDown := .inl rfl
theorem canErrorPassive : ∀ x0, Statement (.canErrorPassive x0) := by intros; exact .inl rfl
theorem auditCommit : ∀ x0, Statement (.auditCommit x0) := by intros; exact .inl rfl
theorem vaultReadCommit : ∀ x0, Statement (.vaultReadCommit x0) := by intros; exact .inl rfl
theorem retiredGenerationErase : ∀ x0, Statement (.retiredGenerationErase x0) := by intros; exact .inl rfl
theorem exponentScanComplete : ∀ x0, Statement (.exponentScanComplete x0) := by intros; exact .inl rfl
theorem unsupportedOperation : ∀ x0 x1 x2, Statement (.unsupportedOperation x0 x1 x2) := by intros; exact .inl rfl
theorem otherFrame : ∀ x0, Statement (.otherFrame x0) := by intros; exact .inl rfl

end Sys2Proof.Laws.Bounds
end

