-- ==== Sys2Proof/Tests/Slice0.lean ====
section
/-! SUPPORT. Tests: the well-formedness checks refuse an ill-formed term each, the decoder of a table without bits, and for every statement
states and operands that meet its hypotheses, clause by clause. `need` collects the hypotheses of a clause, `after` is the state a command
leaves; where a field of it stands beside them, the expected value is from the rule that the statement names. -/

namespace Sys2Proof.Machine

/-! ### Helpers -/

/-- A change of the machine proper. -/
def State.on (s : State) (f : Mach → Mach) : State := s.onMach f

/-- An object at a number. -/
def State.obj (s : State) (i k n : Nat) : State := s.onMach fun m => m.setObj i k (.num n)

/-- A change of one context. -/
def State.ctx (s : State) (c : CtxId) (f : Ctx → Ctx) : State := s.onMach fun m => m.modCtx c f

/-- A change of one island. -/
def State.isl (s : State) (i : IslandId) (f : Island → Island) : State := s.onMach fun m => m.modIsland i f

/-- A change of one link. -/
def State.link (s : State) (l : LinkId) (f : Link → Link) : State := s.onMach fun m => m.modLink l f

end Sys2Proof.Machine

namespace Sys2Proof.Tests

open Sys2Proof Sys2Proof.Machine Sys2Proof.Claims

/-- The state a command leaves. -/
def after (i : Instr) (s : State) : State :=
  match exec i s with
  | .next t => t
  | _ => s

/-- A module that runs: every island in RUN, DRAM of 64 GiB sockets in service, contexts ENABLED, QPs in RTS, CAN OPERATIONAL. -/
def up : State :=
  { State.reset with m := { State.reset.m with
      islands := Vector.replicate 134 (Island.init .run)
      pwr := { State.reset.m.pwr with boot := .running, modState := .active, resetting := none }
      mgmt := { State.reset.m.mgmt with nmt := .operational }
      mem := { State.reset.m.mem with dramState := 2, chans := Vector.replicate 24 ⟨true, 64, 8800, 2, 0, 0, 0, 0, []⟩ }
      host := ⟨0, 0, 0, []⟩
      ctxs := Vector.replicate 4 { Ctx.init with
        st := .enabled, qps := Vector.replicate 18 { Qp.init with st := .rts } } } }

/-- A write reaches the dictionary, as one Boolean. -/
def reaches (s : State) (ch : Channel) (i k : Nat) (b : Bytes) : Bool := s.m.chanUp ch && (s.m.checkWrite ch i k b).toBool

theorem reaches_iff (s : State) (ch : Channel) (i k : Nat) (b : Bytes) : reaches s ch i k b = true ↔ Reaches s ch i k b := by
  unfold reaches Reaches
  cases h : s.m.checkWrite ch i k b <;> simp [Except.toBool]

/-- The number of the abort code in the newest answer to a write. -/
def answerOf (s : State) : Option Nat :=
  match s.m.out.head? with
  | some (.wrote _ _ _ e) => some e.toNat
  | _ => none

end Sys2Proof.Tests

namespace Sys2Proof.Tests

open Sys2Proof Sys2Proof.Machine Sys2Proof.Claims

set_option Elab.async false

/-! ### Well-formedness, decoding -/

theorem test_wf_window : (Instr.windowWrite .can 0 5 []).wf = false ∧ (Instr.windowWrite .can 0 4 []).wf = true := by decide
theorem test_wf_codeword : (Instr.codewordReceive 0 [0]).wf = false := by decide
theorem test_wf_align : (Instr.baseAlignComplete 0 [0, 1, 1, 3] 0 0).wf = false ∧ (Instr.baseAlignComplete 0 [3, 1, 2, 0] 0 0).wf = true := by
  decide
theorem test_wf_linkEvent : (Instr.linkEvent 0 [⟨.up, 1, 0, 0, false⟩]).wf = false := by decide
theorem test_wf_solicitation : (Instr.neighbourSolicitation [1, 2, 3, 4] 0).wf = false := by decide
theorem test_wf_echo : (Instr.echoRequest true [1, 2, 3, 4] []).wf = false ∧ (Instr.echoRequest false [1, 2, 3, 4] []).wf = true := by decide
theorem test_wf_pfc : (Instr.pfcFrame 8 true).wf = false ∧ (Instr.pfcFrame 7 true).wf = true := by decide
theorem test_wf_trained : (Instr.dramTrained []).wf = false := by decide
theorem test_wf_usdo : (Instr.usdoRead 65536 0).wf = false ∧ (Instr.usdoWrite 0 256 [] true).wf = false := by decide
theorem test_wf_register : (Instr.registerWrite .can 65536 0 []).wf = false ∧ (Instr.registerWrite .can 65535 255 []).wf = true := by decide

/-- The table gives no row bits: no word spells a command. -/
theorem test_decode_none : decodeTableWord 32 0x12345678 = none := by decide

/-! ### The block, its fuses -/

theorem test_step_front : (({ State.reset with pending := [.heartbeat, .boot] } : State).pending = .heartbeat :: [.boot]) ∧
    State.reset.pending = [] := by decide

/-- A fuse word with secure boot and three versions blown. -/
def someFuses : Fuses := ⟨true, true, 1 :: List.replicate 31 0, 7⟩

theorem test_fuses_witness : FusesGrow ⟨true, false, [], 1⟩ someFuses ∧ FuseForm someFuses ∧
    step { State.reset with fuses := someFuses } = .next (tick { State.reset with fuses := someFuses }) := by
  exact ⟨⟨by decide, by decide, by simp, by decide⟩, ⟨by decide, by decide, 3, by decide, by decide⟩, rfl⟩

/-! ### Islands, priority -/

theorem test_island_gate : (up.m.islands[(5 : IslandId)]).st = .run ∧
    (let s := up.isl 5 fun x => { x with gateReq := true }
     (s.m.islands[(5 : IslandId)]).gateReq = true ∧ s.m.islandBusy 5 = false ∧
       ((after (.islandGateGrant 5) s).m.islands[(5 : IslandId)]).st = .clockGated) := by decide +kernel
theorem test_island_power :
    (let s := up.isl 9 fun x => { x with st := .clockGated }
     (s.m.islands[(9 : IslandId)]).st = .clockGated ∧ ((after (.islandPowerOff 9) s).m.islands[(9 : IslandId)]).st = .powerGated ∧
       s.m.powered 9 = true ∧
       ((after (.islandPowerOn 9) (after (.islandPowerOff 9) s)).m.islands[(9 : IslandId)]).poweringOn = true ∧
       ((after (.islandWake 9) s).m.islands[(9 : IslandId)]).st = .run) ∧
    (up.on fun m => { m with pwr := { m.pwr with modState := .mgmtOnly } }).m.powered 9 = false ∧
    (dramChan 256).val ≠ 102 - 102 := by decide +kernel
theorem test_island_power_done :
    (let s := up.isl 9 fun x => { x with st := .reset, poweringOn := true }
     (s.m.islands[(9 : IslandId)]).st = .reset ∧ (s.m.islands[(9 : IslandId)]).poweringOn = true) := by decide +kernel
theorem test_island_busy : (up.ctx 0 fun x => { x with cmdQ := [[1]] }).m.islandBusy 132 = true := by decide +kernel
theorem test_derate_apply :
    (let s := up.isl 17 fun x => { x with reqOp := 2, reqGoose := 1 }
     (s.m.islands[(17 : IslandId)]).effective ≠ (s.m.islands[(17 : IslandId)]).wanted ∧ s.m.midWork 17 = false ∧
       s.m.reachable [17] = true ∧ ((after (.derateApply 17) s).m.islands[(17 : IslandId)]).effective = 2) := by decide +kernel
theorem test_derate_write : reaches up .can 0x2403 134 [3] = true ∧ reaches up .can 0x2403 1 [4] = true ∧
    answerOf (after (.islandDerate .can 0 [4]) up) = some 0x06090030 := by decide +kernel
theorem test_priority_write : reaches up .can (ctxIdx 3 1) 1 [2] = true ∧ reaches up .can (ctxIdx 3 1) 1 [3] = true ∧
    (after (.priorityClass .can 3 [2]) up).m.classOf 3 = 2 := by decide +kernel

/-! ### Command delivery and dispatch -/

/-- A word of a header with a sequence number and some slots, given by mask bit and number. -/
def wordBytes (seq flags : Nat) (slots : List (Nat × Nat)) : Bytes :=
  let len := 8 + (slots.map fun p => slotSize p.1).sum
  natLe 8 (flags * 2 ^ 29 + seq * 2 ^ 32 + len / 8 * 2 ^ 48 + (slots.map fun p => 2 ^ (56 + p.1)).sum) ++
    slots.flatMap fun p => natLe (slotSize p.1) p.2

/-- A word of one CONF slot: SET_SEED or SET_STEP of 9. -/
def confWord (op : Nat) : Bytes := wordBytes 0 0 [(7, op * 2 ^ 64 + 9 * 2 ^ 72)]

/-- Context 0 with one SEND in its command queue. -/
def queued (b : Bytes) : State := up.ctx 0 fun x => { x with cmdQ := [b] }

theorem test_command_send : up.m.qpTakes 0 qCmd 1 0 = true ∧ up.m.qpTakes 0 qCmd 4097 0 = true ∧
    (up.m.ctxs[(0 : CtxId)]).cmdRoom = true ∧ ((after (.commandSend 0 [1] false) up).m.ctxs[(0 : CtxId)]).cmdQ = [[1]] := by
  decide +kernel
theorem test_command_no_room : (up.ctx 0 fun x => { x with st := .resetting }).m.ctxs[(0 : CtxId)].cmdRoom = false := by decide +kernel

/-- A word with one SYNC and one MOVE slot is dispatchable, and joins the MOVE queue. -/
theorem test_dispatch : Dispatchable (queued (confWord 2)) 0 (wordOf (confWord 2)) [] := by
  refine ⟨?_, ⟨?_, ?_⟩, ?_, ?_, ?_, ?_, ?_, ?_, ?_, confWord 2, [], confWord 2, [], ?_, ?_, rfl, rfl⟩ <;> decide +kernel
theorem test_set_seed : (wordOf (confWord 2)).slot 7 = some (natLe 64 (2 * 2 ^ 64 + 9 * 2 ^ 72)) ∧
    (parseConf (natLe 64 (2 * 2 ^ 64 + 9 * 2 ^ 72))).op = 2 ∧
    ((after (.setSeed 0) (queued (confWord 2))).m.ctxs[(0 : CtxId)]).seed = 9 := by decide +kernel
theorem test_set_step : Dispatchable (queued (confWord 3)) 0 (wordOf (confWord 3)) [] ∧
    (wordOf (confWord 3)).slot 7 = some (natLe 64 (3 * 2 ^ 64 + 9 * 2 ^ 72)) := by
  refine ⟨⟨?_, ⟨?_, ?_⟩, ?_, ?_, ?_, ?_, ?_, ?_, ?_, confWord 3, [], confWord 3, [], ?_, ?_, rfl, rfl⟩, ?_⟩ <;> decide +kernel
theorem test_reject : up.m.reachable sequencerPath = true ∧ up.m.dispatchTurn 0 = true ∧ (let b := confWord 4
    frame b = some (b, []) ∧ (wordOf b).seq = 0 ∧ wordChecks .a (wordOf b) = some (.badSlot, badSlotDetail 0 7) ∧
      ((after (.wordDispatch 0) (queued b)).m.ctxs[(0 : CtxId)]).st = .halting) := by decide +kernel
theorem test_old_word : (let b := wordBytes 0xFFFF 0 [(0, 0)]
    frame b = some (b, []) ∧ seqBefore 32767 (wordOf b).seq 0 = true ∧ frame [1, 2] = none) := by decide +kernel

/-- A word record with everything done but its emit. -/
def doneWord (ordered : Bool) : WordRec :=
  { uid := 0, seq := 0, fence := false, ordered := ordered, stepBoundary := false, hasSync := true, syncTargets := 1, syncId := 5,
    userTag := 0, step := 0, left := [], syncFired := false, completed := false, told := false }

theorem test_sync :
    (let s := up.ctx 0 fun x => { x with words := [doneWord false] }
     let x := s.m.ctxs[(0 : CtxId)]
     x.live = true ∧ x.overflows 1 5 = none ∧
       x.words.find? (fun w => (decide (w.seq = 0) && !w.isOrdered) && x.mayFire w) = some (doneWord false) ∧
       ((after (.sync 0 0) s).m.ctxs[(0 : CtxId)]).tokens 0 5 = 1) := by decide +kernel
theorem test_ordered :
    (let s := up.ctx 0 fun x => { x with words := [doneWord true] }
     let x := s.m.ctxs[(0 : CtxId)]
     x.words.find? (fun w => w.isOrdered && x.mayFire w) = some (doneWord true) ∧ (doneWord true).isOrdered = true ∧
       x.mayFire (doneWord true) = true ∧ ((after (.orderedCompletionRelease 0) s).m.ctxs[(0 : CtxId)]).tokens 0 5 = 1) := by
  decide +kernel
theorem test_tokens :
    (let x := { Ctx.init with heddle := [(4095, 2)] }
     x.waitsHold [(0, 4095), (0, 4095)] = true ∧ (x.consume [(0, 4095), (0, 4095)]).tokens 0 4095 = 0 ∧
       (x.emit 1 4095).tokens 0 4095 = 3) := by decide +kernel

/-- A MOVE slot of word 0 with an emit to table 1 of token 3. -/
def emitSlot : QSlot := ⟨0, 0, .move, natLe 80 (2 ^ 58 + 3 * 2 ^ 45), 0, 0, 0, []⟩

theorem test_overflow :
    (let s := up.ctx 0 fun x => { x with heddle := [(4099, 65535)] }
     (s.m.ctxs[(0 : CtxId)]).st = .enabled ∧ emitTargets (ctlOf emitSlot.bytes) = 2 ∧ emitId (ctlOf emitSlot.bytes) = 3 ∧
       (s.m.ctxs[(0 : CtxId)]).overflows 2 3 = some 1 ∧ ((s.m.commitSlot 0 emitSlot).ctxs[(0 : CtxId)]).cause = .fault) := by
  decide +kernel

theorem test_deadlock :
    (let s := up.ctx 0 fun x => { x with queues := Vec.upd x.queues 0 fun _ => [⟨0, 0, .move, natLe 80 (2 ^ 31), 0, 0, 0, []⟩] }
     let heads := s.m.cmdHead 0 :: allEng.map (s.m.ctxs[(0 : CtxId)]).engineHead
     HeadState.free ∉ heads ∧ s.m.nothingRuns 0 = true ∧ s.m.tokenInTransit 0 = false ∧
       oldestHead (heads.filterMap fun k => match k with
         | .blocked b => some b
         | _ => none) = some ⟨0, 0, [(0, 0)], 0, false⟩) := by decide +kernel

/-! ### Control of a context -/

theorem test_token_post : reaches up .can (ctxIdx 0 3) 5 (natLe 4 (2 ^ 16 + 5 * 2 ^ 12 + 4095)) = true ∧
    ((after (.tokenPost .can 0 (natLe 4 (2 ^ 16 + 5 * 2 ^ 12 + 4095))) up).m.ctxs[(0 : CtxId)]).tokens 5 4095 = 1 ∧
    answerOf (after (.tokenPost .can 0 (natLe 4 (2 ^ 16 + 6 * 2 ^ 12))) up) = some 0x06090030 ∧
    answerOf (after (.tokenPost .can 0 (natLe 4 (2 ^ 16))) (up.ctx 0 fun x => { x with st := .faulted })) = some 0x08000022 ∧
    answerOf (after (.tokenPost .can 0 (natLe 4 (2 ^ 16))) (up.on fun m => { m with pwr := { m.pwr with modState := .standby } })) =
      some 0x08000022 := by
  decide +kernel
theorem test_halt : reaches up .can (ctxIdx 0 3) 1 [1] = true ∧ ((after (.halt .can 0 [1]) up).m.ctxs[(0 : CtxId)]).cause = .halt ∧
    reaches up .can (ctxIdx 0 3) 2 [1] = true ∧
    ((after (.resume .can 0 [1]) (up.ctx 0 fun x => { x with st := .halted, cause := .halt })).m.ctxs[(0 : CtxId)]).st = .enabled := by
  decide +kernel
theorem test_halted :
    (let s := up.ctx 0 fun x => { x with st := .halting }
     s.m.drained 0 = true ∧ (s.m.ctxs[(0 : CtxId)]).pendingFault = none ∧
       ((after (.contextHalted 0) s).m.ctxs[(0 : CtxId)]).st = .halted ∧
       ((after (.contextHalted 0) (s.ctx 0 fun x => { x with
          pendingFault := some ⟨2, 0, 7, 0, 0, 0, false, noRange, noRange, 0xFF, 0⟩ })).m.ctxs[(0 : CtxId)]).st = .faulted) ∧
    (up.on fun m => { m with audits := [⟨0, emitSlot, []⟩] }).m.drained 0 = false := by decide +kernel
theorem test_abort :
    (let s := (queued (confWord 2)).ctx 0 fun x => { x with lastCommitted := 0xFFFF }
     reaches s .can (ctxIdx 0 3) 3 (natLe 2 0) = true ∧ seqBefore 32767 0 (s.m.ctxs[(0 : CtxId)]).lastCommitted = false ∧
       (cutQueue 0 (s.m.ctxs[(0 : CtxId)]).cmdQ).2 ≠ 0 ∧ ((after (.abortFromSeq .can 0 (natLe 2 0)) s).m.ctxs[(0 : CtxId)]).cmdQ = []) ∧
    (let s := up.ctx 0 fun x => { x with lastCommitted := 9 }
     seqBefore 32767 (BitVec.ofNat 16 3) (s.m.ctxs[(0 : CtxId)]).lastCommitted = true ∧
       ((after (.abortFromSeq .can 0 (natLe 2 3)) s).m.ctxs[(0 : CtxId)]).recordQ.length = 1) ∧
    answerOf (after (.abortFromSeq .can 0 (natLe 2 3)) (up.ctx 0 fun x => { x with st := .disabled })) = some 0x08000022 := by
  decide +kernel
theorem test_context_reset : reaches up .can (ctxIdx 0 3) 4 [1] = true ∧
    ((after (.contextReset .can 0 [1]) up).m.ctxs[(0 : CtxId)]).st = .resetting ∧
    ((after (.contextResetDone 0) (up.ctx 0 fun x => { x with st := .resetting })).m.ctxs[(0 : CtxId)]).st = .enabled := by decide +kernel
theorem test_context_enable :
    (let s := up.ctx 1 fun x => { x with st := .disabled }
     reaches s .can (ctxIdx 1 0) 2 [1] = true ∧ s.m.pwr.moduleScopeFault = false ∧ s.m.windowsOk 1 = true ∧ s.m.mem.dramState = 2 ∧
       ((after (.contextEnable .can 1) s).m.ctxs[(1 : CtxId)]).st = .enabled) ∧ reaches up .can (ctxIdx 1 0) 2 [0] = true ∧
    ((after (.contextDisable .can 1) up).m.ctxs[(1 : CtxId)]).st = .disabled := by decide +kernel
theorem test_window_write :
    (let s := up.ctx 0 fun x => { x with st := .disabled }
     reaches s .can (ctxIdx 0 4) 2 (natLe 2 446) = true ∧ s.m.windowFree 0 = true ∧ (s.m.ctxs[(0 : CtxId)]).windowPending = none ∧
       s.m.spadWindowOk 0 (s.m.windowWith 0 2 446).2 = true ∧ gained (s.m.windowWith 0 2 446).1 (s.m.windowWith 0 2 446).2 = [] ∧
       reaches s .can (ctxIdx 0 4) 4 (natLe 8 0) = true ∧
       s.m.dramWindowOk 1 (s.m.windowWith 1 4 0).2 = true ∧
       (let t := s.obj (ctxIdx 0 4) 2 10
        gained (t.m.windowWith 0 2 20).1 (t.m.windowWith 0 2 20).2 ≠ [] ∧ t.m.spadWindowOk 0 (t.m.windowWith 0 2 20).2 = true)) := by
  decide +kernel
theorem test_window_done :
    (let s := up.ctx 0 fun x => { x with windowPending := some (.bootUp, 2, 20) }
     ((after (.windowZeroDone 0) s).m.ctxs[(0 : CtxId)]).windowPending = none ∧ (after (.windowZeroDone 0) s).m.num (ctxIdx 0 4) 2 = 20) := by
  decide +kernel
theorem test_record_write :
    (let s := (up.ctx 0 fun x => { x with recordQ := [⟨0, none, [7]⟩] }).obj (qpIdx 0 qComp) 0x12 16
     s.m.hostUp = true ∧ s.m.hostPaused 0 = false ∧ (0 : BitVec 32).toNat < s.m.ringEntries 0 ∧
       ((after (.recordWrite 0) s).m.ctxs[(0 : CtxId)]).recordQ = []) := by decide +kernel
theorem test_ring_credit :
    (let s := up.ctx 0 fun x => { x with recordSeq := 5 }
     ((4 : BitVec 32) - (s.m.ctxs[(0 : CtxId)]).consumed).toNat ≤ ((s.m.ctxs[(0 : CtxId)]).nextRecord - (s.m.ctxs[(0 : CtxId)]).consumed).toNat ∧
       ((after (.ringCredit 0 (natLe 4 4 ++ [0, 0, 0, 0]) false) s).m.ctxs[(0 : CtxId)]).consumed = 4) ∧
    (up.ctx 0 fun x => { x with recordQ := List.replicate 256 ⟨0, none, []⟩ }).m.ctxs[(0 : CtxId)].recordRoom = false := by decide +kernel


/-! ### Engines: start, work, commit -/

/-- A descriptor of one row: address, format code, elements. -/
def td1 (addr fmt n : Nat) : Nat := addr + fmt * 2 ^ 32 + (n - 1) * 2 ^ 40

/-- A descriptor of two dimensions with rows 32 bytes apart. -/
def td2 (addr fmt n rows : Nat) : Nat := td1 addr fmt n + 2 ^ 38 + (rows - 1) * 2 ^ 56 + 2 * 2 ^ 104

/-- A slot of an engine, of word 0. -/
def slotOf (e : Eng) (n v : Nat) : QSlot := ⟨0, 0, e, natLe n v, 7, 3, 0, []⟩

/-- A running module with a slot at the head of a queue of context 0. -/
def withSlot (q : QSlot) : State :=
  (up.ctx 0 fun x => { x with queues := Vec.upd x.queues q.eng.num fun _ => [q] }).obj (ctxIdx 0 4) 4 (2 ^ 36)

/-- A MOVE slot of 8 FP32 elements that names an emit of token 3 for engine 1. -/
def moveOf (ty dst src more : Nat) : QSlot :=
  slotOf .move 80 (ty * 2 ^ 636 + td1 dst 3 8 * 2 ^ 320 + td1 src 3 8 * 2 ^ 64 + more + 2 ^ 58 + 3 * 2 ^ 45)

/-- What a MOVE row needs, as one Boolean. -/
def moveMay (s : State) (q : QSlot) (ty : MoveTy) : Bool :=
  let v := parseMove q.bytes
  let m := (s.m.takeHead 0 .move).wake v.startPath
  decide (s.m.startable 0 .move = some q) && decide (v.ty = some ty) && s.m.moveStarts 0 v && decide (m.checkFar 0 v = none) &&
    decide (m.checkMove 0 v = none)

/-- Fold slot 0 bound to context 0, READY, rank 0 on this module, rank 1 on a neighbour with a route to it. -/
def folded : State :=
  ((up.obj 0x2501 1 7).obj 0x2510 1 0).on fun m =>
    { m with net := { m.net with
        folds := Vec.upd m.net.folds 0 fun f => { f with
          st := .ready, committed := true, fenced := false,
          rankMap := natLe 8 (2 ^ 31) ++ natLe 8 (2 ^ 31 + 1), homes := natLe 4 0 ++ natLe 4 1 },
        routes := [(entryIndex false 0 1, 0)] } }

/-- The same with a slot at the head of context 0's queue. -/
def foldSlot (q : QSlot) : State :=
  (folded.ctx 0 fun x => { x with queues := Vec.upd x.queues q.eng.num fun _ => [q] }).obj (ctxIdx 0 4) 4 (2 ^ 36)

theorem test_move_start :
    (let q := moveOf 0 4096 0 0; moveMay (withSlot q) q .load) = true ∧
    (let q := moveOf 1 0 4096 0; moveMay (withSlot q) q .store) = true ∧
    (let q := moveOf 2 4096 0 0; moveMay (withSlot q) q .copy) = true ∧
    (let q := moveOf 3 4096 0 0; moveMay (withSlot q) q .dcopy) = true ∧
    (let q := moveOf 6 4096 0 0; moveMay (withSlot q) q .hostIn) = true ∧
    (let q := moveOf 7 0 4096 0; moveMay (withSlot q) q .hostOut) = true := by decide +kernel
theorem test_move_far :
    (let q := moveOf 4 4096 0 (2 ^ 620); moveMay (foldSlot q) q .put) = true ∧
    (let q := moveOf 5 4096 0 (2 ^ 620); moveMay (foldSlot q) q .get) = true := by decide +kernel
theorem test_move_window :
    (let q := moveOf 2 (2 ^ 29 - 16) 0 0
     let s := withSlot q
     let m := (s.m.takeHead 0 .move).wake (parseMove q.bytes).startPath
     m.checkFar 0 (parseMove q.bytes) = none ∧ m.checkMove 0 (parseMove q.bytes) = some (.windowViolation, 0)) := by decide +kernel

/-- The job of a slot that has just started. -/
def jobOf (q : QSlot) (pieces : Nat) : MoveJob := ⟨0, q, 0, pieces, 0, 0, 0, [], [], false, 0, false, none⟩

/-- A running module with one MOVE job. -/
def moving (j : MoveJob) : State := up.on fun m => { m.spadWrite 0 [1, 2, 3] with mv := { m.mv with jobs := [j] } }

theorem test_no_events (m : Mach) : m.memEvents ⟨[], []⟩ = m := rfl
theorem test_piece_copy :
    (let j := jobOf (moveOf 2 4096 0 0) 1
     let s := moving j
     s.m.nextJob = some j ∧ (parseMove j.slot.bytes).piece 0 = [⟨0, 0, 32⟩] ∧
       (parseMove j.slot.bytes).acc = false ∧ s.m.spadPartBad 4096 32 = none ∧ (parseMove j.slot.bytes).ty = some .copy ∧ s.m.spadBad 0 32 = none ∧
       (after (.movePiece ⟨0, [], []⟩) s).m.spadRead 4096 3 = [1, 2, 3]) := by decide +kernel
theorem test_piece_load :
    (let j := jobOf (moveOf 0 4096 0 0) 1
     let s := moving j
     s.m.nextJob = some j ∧ (parseMove j.slot.bytes).ty = some .load ∧ s.m.dramBad 0 32 = none) := by decide +kernel
theorem test_piece_host :
    (let j := jobOf (moveOf 6 4096 0 0) 1
     let s := ((moving j).obj 0x29C1 21 8).on fun m => m.modPool 1 fun p => { p with memory := 1, sizeLog2 := 14, count := 8 }
     s.m.nextJob = some j ∧ (parseMove j.slot.bytes).ty = some .hostIn ∧ (parseMove j.slot.bytes).piece 0 = [⟨0, 0, 32⟩] ∧
       ((s.m.ctxs[(0 : CtxId)]).qps[qData 0]).st = .rts ∧ (s.m.bpmAsk 1 ⟨rqMove, 1, .host 0 0⟩).2 = true) := by decide +kernel
theorem test_move_complete :
    (let j := { jobOf (moveOf 2 4096 0 0) 1 with nextPiece := 1 }
     let s := moving j
     s.m.mv.jobs.find? (fun k => decide (k.c = 0 ∧ k.slot.seq = 0)) = some j ∧ s.m.moveDone j = true ∧ s.m.mayCommit 0 j.slot = true ∧
       (s.m.ctxs[(0 : CtxId)]).overflows (emitTargets (ctlOf j.slot.bytes)) (emitId (ctlOf j.slot.bytes)) = none ∧
       ((after (.moveComplete 0 0) s).m.ctxs[(0 : CtxId)]).tokens 1 3 = 1) ∧
    (moving (jobOf emitSlot 1)).m.moveDone (jobOf emitSlot 1) = false := by decide +kernel

/-- A request of the job's slot in flight, sent again n times already. -/
def flying (n : Nat) : State :=
  (moving (jobOf emitSlot 1)).on fun m => { m with
    mv := { m.mv with flights := [⟨9, .slot 0 0, mkPacket { ty := tyPut, cls := clsReq } [], 1, n, 0, false, 0, none, false⟩] } }

theorem test_resend :
    (let f := (flying 0).m.mv.flights.find? (fun g => decide (g.tag = 9) && !g.held && g.answer.isNone)
     f.isSome = true ∧ (flying 0).m.canReach clsReq 0 = true ∧ (flying 0).m.net.rebuilding = false ∧ 0 < (flying 0).m.num 0x2983 2 ∧
       (f.map fun f => ((hdrOf f.pkt).cls, (hdrOf f.pkt).dst.toNat)) = some (clsReq, 0) ∧
       (after (.moveRetryTimeout 9) (flying 0)).m.mv.flights.map Flight.resends = [1]) ∧
    ((flying 100).m.num 0x2983 2 ≤ 100 ∧ ((flying 100).m.moveJob 0 0).isSome = true ∧
       ((after (.moveRetryTimeout 9) (flying 100)).m.ctxs[(0 : CtxId)]).cause = .fault) := by decide +kernel

/-- An ARRAY slot of 8 by 8 BF16 matrices, with an FP32 result. -/
def arrayOf (more : Nat) : QSlot :=
  slotOf .array 112 (td2 8192 3 8 8 * 2 ^ 576 + td2 4096 1 8 8 * 2 ^ 320 + td2 0 1 8 8 * 2 ^ 64 + 2 ^ 10 + more)

/-- Its job after some row steps. -/
def arrayJob (n : Nat) : ArrayJob := ⟨0, arrayOf 0, n, 8, false, false, [], []⟩

theorem test_array_start :
    (let q := arrayOf 0
     let s := withSlot q
     let m := (s.m.takeHead 0 .array).wake (parseArray q.bytes).path
     s.m.arrayRunning 0 = none ∧ s.m.arrayReady 0 = some q ∧ s.m.loomTakes 0 q = true ∧ m.loomRefused = none ∧
       m.checkArray 0 (parseArray q.bytes) = none ∧ (parseArray q.bytes).total .a = 8) := by decide +kernel
theorem test_array_row :
    (let s := up.on fun m => { m.spadWrite 0 [1, 2, 3] with arrays := [arrayJob 7] }
     s.m.arrayRunning 0 = some (arrayJob 7) ∧ s.m.suspendDue (arrayJob 7) = false ∧ s.m.tilesOwed loomIslands = false ∧
       s.m.reachable (parseArray (arrayOf 0).bytes).path = true ∧
       (match (s.m.wake (parseArray (arrayOf 0).bytes).path).rowStep (arrayJob 7) with
        | .done _ => true
        | _ => false) = true ∧ (after (.array 0 1 none) s).m.arrays.map ArrayJob.done = [8] ∧
       ((after (.array 0 1 (some 31)) s).m.ctxs[(0 : CtxId)]).cause = .fault) := by decide +kernel
theorem test_array_suspend :
    (let s := ((up.ctx 1 fun x => { x with queues := Vec.upd x.queues 1 fun _ => [arrayOf 0] }).obj (ctxIdx 0 1) 1 1).on
       fun m => { m with arrays := [arrayJob 2] }
     s.m.arrayRunning 0 = some (arrayJob 2) ∧ s.m.suspendDue (arrayJob 2) = true ∧ s.m.saveFits 0 = true ∧
       (after (.arraySuspend 0) s).m.arrays.map ArrayJob.suspended = [true]) := by decide +kernel
theorem test_array_resume :
    (let j := { arrayJob 2 with suspended := true }
     let s := up.on fun m => { m with arrays := [j] }
     s.m.arrayParked 0 = some j ∧ s.m.loomFree = true ∧ s.m.arrayMayRun j = true ∧ s.m.loomOpen (parseArray j.slot.bytes) = true ∧
       s.m.higherReady 0 (s.m.classOf 0) = false ∧ s.m.resumeTurn 0 (s.m.classOf 0) = true ∧
       s.m.arrayWindow 0 (parseArray j.slot.bytes) = true ∧
       (after (.arrayResume 0) s).m.arrays.map ArrayJob.suspended = [false]) := by decide +kernel
theorem test_array_commit :
    (let s := up.on fun m => { m with arrays := [arrayJob 8] }
     s.m.arrays.find? (fun k => decide (k.c = 0) && decide (k.done = k.total) && !k.suspended) = some (arrayJob 8) ∧
       s.m.mayCommit 0 (arrayOf 0) = true ∧ (after (.arrayCommit 0) s).m.arrays = []) := by decide +kernel
theorem test_frozen :
    (let q := arrayOf (2 ^ 7)
     let s := withSlot q
     s.m.startable 0 .array = some q ∧ (parseArray q.bytes).frozen = true ∧ s.m.mayCommit 0 q = true ∧
       s.m.arrayWindow 0 (parseArray q.bytes) = true ∧ ((after (.frozen 0) s).m.ctxs[(0 : CtxId)]).queues[(1 : Fin 7)] = []) := by
  decide +kernel

/-- A VECTOR slot on die 0 over rows of 8 FP32 elements. -/
def vecOf (op more : Nat) : QSlot :=
  slotOf .vector 128 (td1 8192 3 8 * 2 ^ 576 + td1 4096 3 8 * 2 ^ 320 + td1 0 3 8 * 2 ^ 64 + op * 2 ^ 11 + 2 ^ 5 + more)

/-- What a VECTOR row needs, as one Boolean. -/
def vecMay (s : State) (q : QSlot) (op : Nat) (takeup : Bool) : Bool :=
  let v := parseVec q.bytes
  let m : Mach := { ((s.m.takeHead 0 .vector).wake v.path) with lastVec := 0 }
  decide (v.opcode = op) && decide (s.m.vecReady 0 = some q) && s.m.vecTakes 0 q && decide (m.vecRefused v = none) &&
    decide (m.checkVec 0 v = none) && (v.takeup == takeup) && decide (m.badSpadIn (m.vecReads v) (m.vecWrites v) = none)

theorem test_vector_start : (vectorRows.all fun r => let q := vecOf r.1 0; vecMay (withSlot q) q r.1 false) = true := by decide +kernel
theorem test_vector_takeup : (let q := vecOf 1 (2 ^ 10); vecMay (withSlot q) q 1 true) = true ∧ vectorRows.length = 43 := by
  decide +kernel
theorem test_vector_copy :
    (let q := vecOf 1 0
     let s := (withSlot q).on fun m => m.spadWrite 0 [0, 0, 0x80, 0x3F]
     (after (.vectorCopy 0 none) s).m.spadRead 8192 8 = [0, 0, 0x80, 0x3F, 0, 0, 0, 0]) := by decide +kernel
theorem test_vector_add :
    (let q := vecOf 2 0
     let s := (withSlot q).on fun m => (m.spadWrite 0 [0, 0, 0x80, 0x3F]).spadWrite 4096 [0, 0, 0, 0x40]
     (after (.add 0 none) s).m.spadRead 8192 4 = [0, 0, 0x40, 0x40]) := by decide +kernel
theorem test_vector_parity :
    (let j : VecJob := ⟨0, vecOf 1 0, true⟩
     let s := up.on fun m => { m with vecs := [j] }
     s.m.vecs.find? (fun k => decide (k.c = 0) && decide ((parseVec k.slot.bytes).opcode = 1)) = some j ∧
       (parseVec j.slot.bytes).runDies.contains 0 = true ∧ ((after (.vectorCopy 0 (some 0)) s).m.ctxs[(0 : CtxId)]).cause = .fault) := by
  decide +kernel
theorem test_vector_commit :
    (let j : VecJob := ⟨0, vecOf 1 0, true⟩
     let s := up.on fun m => { m with vecs := [j] }
     s.m.vecs.find? (fun k => decide (k.c = 0)) = some j ∧ s.m.mayCommit 0 j.slot = true ∧ (after (.vectorCommit 0) s).m.vecs = []) := by
  decide +kernel
theorem test_vector_stream :
    (let j : VecJob := ⟨0, vecOf 1 (2 ^ 10), false⟩
     let s := up.on fun m => { m with vecs := [j], takeups := [⟨0, 0, [(0, 0x3F800000)], true, false, false, 0, Vector.replicate 4 0⟩] }
     let u := s.m.takeupOf 0 0
     s.m.mayCommit 0 j.slot = true ∧ u.whole = true ∧ u.frozen = false ∧ u.tainted = false ∧
       ((s.m.dropVec 0 0).runVec 0 j.slot (some u)).2 = true ∧
       (after (.vectorCommit 0) s).m.spadRead 8192 4 = [0, 0, 0x80, 0x3F]) := by decide +kernel

/-- An AUDIT slot over 16 bytes of scratchpad. -/
def auditOf (op len : Nat) : QSlot := slotOf .audit 32 (op * 2 ^ 64 + len * 2 ^ 116 + 4096 * 2 ^ 72)

/-- What an AUDIT row needs, as one Boolean. -/
def auditMay (s : State) (q : QSlot) (op : Nat) : Bool :=
  let a := parseAudit q.bytes
  let m := (s.m.takeHead 0 .audit).wake a.path
  decide (s.m.startable 0 .audit = some q) && !s.m.audits.any (fun j => decide (j.c = 0)) && s.m.works && s.m.reachable a.path &&
    m.auditWindow 0 a && decide (a.op = op)

theorem test_audit_start : (let q := auditOf 0 0; auditMay (withSlot q) q 0) = true ∧ (let q := auditOf 1 16; auditMay (withSlot q) q 1) = true ∧
    (let q := auditOf 2 2048; auditMay (withSlot q) q 2) = true ∧
    ((withSlot (auditOf 1 16)).m.spadBad 4096 16 = none) := by decide +kernel
theorem test_audit_commit :
    (let j : AuditJob := ⟨0, auditOf 1 16, [5]⟩
     let s := up.on fun m => { m with audits := [j] }
     s.m.audits.find? (fun k => decide (k.c = 0)) = some j ∧ s.m.mayCommit 0 j.slot = true ∧ (parseAudit j.slot.bytes).op ≠ 2 ∧
       ((after (.auditCommit 0) s).m.ctxs[(0 : CtxId)]).recordSeq = 1) ∧
    (let j : AuditJob := ⟨0, auditOf 2 2048, []⟩
     let s := up.on fun m => { m with audits := [j], counters := Vec.upd m.counters 0 fun k => { k with owner := 0, value := 77 } }
     s.m.mayCommit 0 j.slot = true ∧ s.m.spadPartBad 4096 2048 = none ∧ (s.m.snapBlock 0).take 2 = [77, 0]) := by
  decide +kernel

/-! ### The Shuttle -/

/-- Group 3 of context 0: one die of this module and one of the neighbour. -/
def grp : Group := ⟨0, 3, [(2, 0), (2, 1)], [0, 1], 0, 1, 0x12, 2, 0, 3, 0, 0⟩

/-- A SHUTTLE slot of group 3 over 64 elements. -/
def shutOf (op seq : Nat) : QSlot :=
  let f := if op = 6 then 4 else 3
  slotOf .shuttle 64 (seq * 2 ^ 376 + op * 2 ^ 372 + 3 * 2 ^ 360 +
    (if op = 5 then 0 else f * 2 ^ 352 + 8192 * 2 ^ 320 + td1 4096 f (if op = 6 then 1 else 64) * 2 ^ 64))

/-- A module with the group. -/
def grouped : State := folded.on fun m => { m with shut := { m.shut with groups := [grp] } }

/-- What a collective row needs, as one Boolean. -/
def collMay (op seq : Nat) : Bool :=
  let q := shutOf op seq
  let s := grouped.ctx 0 fun x => { x with queues := Vec.upd x.queues 3 fun _ => [q] }
  let v := parseShut q.bytes
  let m := (s.m.wake (s.m.collPath 0 q)).takeHead 0 .shuttle
  let next := m.modGroup 0 v.group fun g => { g with expected := g.expected + 1 }
  decide (s.m.startable 0 .shuttle = some q) && decide (v.op = op) && s.m.works && s.m.reachable (s.m.collPath 0 q) && !s.m.foldWaits 0 &&
    decide (s.m.collGroup 0 v = some (grp, 0)) && (v.seq != 0 ||
      (decide (next.checkColl (next.makeColl 0 q false grp 0) = none) && !next.unplanned 0))

/-- The same slot over a source that reaches beyond the window. -/
def collBad (op : Nat) : Bool :=
  let q := slotOf .shuttle 64 (op * 2 ^ 372 + 3 * 2 ^ 360 + 3 * 2 ^ 352 + 8192 * 2 ^ 320 + td1 (2 ^ 29 - 64) 3 64 * 2 ^ 64)
  let s := grouped.ctx 0 fun x => { x with queues := Vec.upd x.queues 3 fun _ => [q] }
  let m := (s.m.wake (s.m.collPath 0 q)).takeHead 0 .shuttle
  let next := m.modGroup 0 3 fun g => { g with expected := g.expected + 1 }
  decide (s.m.startable 0 .shuttle = some q) && s.m.reachable (s.m.collPath 0 q) && (next.checkColl (next.makeColl 0 q false grp 0)).isSome

theorem test_collectives : (collectiveRows.all fun r => collMay r.1 0 && collMay r.1 9) = true ∧ collBad 0 = true ∧ collectiveRows.length = 7 := by
  decide +kernel

/-- A started collective over a group. -/
def collOf (g : Group) (op : Nat) (phase : CollPhase) (f : ShMember → ShMember) : Coll :=
  let k := grouped.m.makeColl 0 (shutOf op 0) false g 0
  { k with phase := phase, reserved := 16, members := k.members.map f }

/-- A module on which it is open, with messages received and bobbins sent. -/
def opened (k : Coll) (rx : List ShMsg) : State :=
  grouped.on fun m => { m with shut := { m.shut with groups := [{ k.group with expected := 1 }], colls := [k], rx := rx, nextId := 9 } }

/-- A message of member 1 to a collective. -/
def msgOf (k : Coll) (f : ShHdr → ShHdr) (d : Bytes) : ShMsg := ⟨1, 0, 0, (f (k.hdr 1)).pack, d⟩

/-- The first member of this module. -/
def mine (k : Coll) : ShMember := k.members.headD ⟨0, 0, 0, [], none, false, none, [], false, none, 0, 0, [], [], [], [], [], [], false⟩

/-- A message is the next one of its kind, for the open collective, and agrees with it. -/
def handMay (k : Coll) (g : ShMsg) (kind : Nat) : Bool :=
  let h := shHdr g.hdr
  match (opened k [g]).m.takeMsg kind (fun _ => true) with
  | some (g', m1) => decide (g' = g) && decide (m1.msgPlace g = .here k) && decide (h.proto = 1) && decide (h.desc = k.describe.1) &&
      decide (h.mhash = k.group.hash.toNat)
  | none => false

theorem test_admit :
    (let k := collOf grp 0 .reservation id
     (opened k []).m.coll k.key = some k ∧ k.phase = .reservation ∧ k.reserved ≠ 0 ∧ k.reduces = true ∧ (collOf grp 2 .reservation id).reduces = false ∧
       (k.members.all fun y => y.readyAt.isNone) = true ∧
       ((after (.collectiveAdmit k.key) (opened k [])).m.coll k.key).map Coll.phase = some .admitted) := by decide +kernel
theorem test_scan :
    (let k := collOf grp 0 .admitted id
     let s := opened k []
     s.m.coll k.key = some k ∧ k.members.find? (fun y => y.readyAt.isNone) = some (mine k) ∧ k.member (mine k).h = some (mine k) ∧
       s.m.reachable k.path = true ∧ s.m.badSpads (s.m.srcRanges k (mine k).die 0 k.s.src.count) = none ∧ 1 ∈ k.children (mine k).h ∧
       (mine k).h = 0 ∧ (mine k).reports = [] ∧ k.reduces = true ∧
       (s.on fun m => { m with mem := { m.mem with badWords := [(2 ^ 30 + 4096) / 8] } }).m.badSpads
         (s.m.srcRanges k (mine k).die 0 k.s.src.count) ≠ none) := by decide +kernel
theorem test_scale :
    (let k := collOf grp 0 .admitted id
     let g := msgOf k (fun h => { h with kind := shScale, emax := 5 }) []
     handMay k g shScale = true ∧ (shHdr g.hdr).sender = 1 ∧ 1 < k.size ∧ k.member (k.parent 1) = some (mine k) ∧
       (mine k).reports = [] ∧ (mine k).readyAt = none ∧
       ((after .shuttleScale (opened k [g])).m.coll k.key).map (fun j => (mine j).reports.map Prod.fst) = some [1]) := by decide +kernel
theorem test_scale_level :
    (let k := collOf grp 0 .admitted id
     let g := msgOf k (fun h => { h with kind := shScale, proto := 2 }) []
     (shHdr g.hdr).proto ≠ k.group.proto.toNat ∧ ((after .shuttleScale (opened k [g])).m.ctxs[(0 : CtxId)]).cause = .fault) := by
  decide +kernel
theorem test_result :
    (let k := collOf { grp with coords := [1, 0] } 0 .admitted id
     let g := msgOf k (fun h => { h with kind := shResult, sender := 0, emax := 5 }) []
     handMay k g shResult = true ∧ k.childOf 0 (fun y => y.result.isNone) = some (mine k) ∧ k.member (mine k).h = some (mine k) ∧
       k.s.op ≠ 5) ∧
    (let k := collOf { grp with coords := [1, 0] } 5 .admitted id
     let g := msgOf k (fun h => { h with kind := shResult, sender := 0 }) []
     handMay k g shResult = true ∧ k.childOf 0 (fun y => y.result.isNone) = some (mine k) ∧ k.member (mine k).h = some (mine k) ∧
       k.s.op = 5 ∧ k.children (mine k).h = [] ∧ k.members.map ShMember.tasks = [[]]) := by decide +kernel
theorem test_scalar_down :
    (let k := collOf { grp with coords := [1, 0] } 6 .admitted id
     let g := msgOf k (fun h => { h with kind := shScalar, sender := 0, inward := true, value := 7 }) []
     handMay k g shScalar = true ∧ (shHdr g.hdr).inward = true ∧ k.childOf 0 (fun y => y.total.isNone) = some (mine k) ∧
       k.children (mine k).h = [] ∧ ((after .shuttleScalar (opened k [g])).m.coll k.key).map (fun j => (mine j).total) = some (some 7)) := by
  decide +kernel
theorem test_scalar_up :
    (let k := collOf grp 6 .admitted id
     let g := msgOf k (fun h => { h with kind := shScalar, value := 7 }) []
     handMay k g shScalar = true ∧ (shHdr g.hdr).inward = false ∧ (shHdr g.hdr).sender = 1 ∧ k.member (k.parent 1) = some (mine k) ∧
       (mine k).scalars = [] ∧ (mine k).result = none) := by decide +kernel

/-- A collective over 20000 elements whose member has its result, has begun its only outward ring stage and has sent its bobbins. -/
def running (seen : List (Nat × Bool × Bool × Nat)) : Coll :=
  { collOf grp 0 .admitted fun y => { y with result := some ⟨[0], false, 0⟩, seen := seen, outStage := 1 } with
    slot := slotOf .shuttle 64 (3 * 2 ^ 360 + 3 * 2 ^ 352 + 2 ^ 17 * 2 ^ 320 + td1 4096 3 20000 * 2 ^ 64) }

/-- A bobbin of one word of zero for it, inward, with a CRC and Tally. -/
def bobbinOf (k : Coll) (crc tl : Nat) : ShMsg :=
  let d := List.replicate 4 (0 : Byte)
  msgOf k (fun h => { h with kind := shData, inward := true, length := 4, crc := (crc32 d).toNat + crc, tally := tl }) d

/-- `Settled`, as one Boolean. -/
def settled (k : Coll) : Bool :=
  k.members.all fun y => decide (k.advance y = y) && decide (y.tasks = []) &&
    (!k.multicasts || k.members.all fun z => z.inwardSpans.all fun p => decide (p.2 = 0) || decide (p ∈ y.wrote))

theorem settled_iff (k : Coll) : settled k = true → Settled k := by
  intro h y hy
  have h := List.all_eq_true.mp h y hy
  simp only [Bool.and_eq_true, Bool.or_eq_true, decide_eq_true_eq, List.all_eq_true, Bool.not_eq_true'] at h
  refine ⟨h.1.1, h.1.2, fun hm z hz p hp h0 => ?_⟩
  rcases h.2 with h' | h'
  · simp [h'] at hm
  · exact (h' z hz p hp).resolve_left h0

/-- The data of a bobbin reaches a member that can take it, as one Boolean; `crc` tells whether its CRC is right. -/
def bobbinMay (k : Coll) (g : ShMsg) (crc : Bool) : Bool :=
  let s := opened k [g]
  let h := shHdr g.hdr
  match s.m.takeMsg shData s.m.dataReady with
  | some (g', m1) => decide (g' = g) && decide (m1.msgPlace g = .here k) && decide (k.bobbinFor h = some (mine k)) &&
      (mine k).result.isSome && (decide ((crc32 g.data).toNat = h.crc) == crc) && decide (g.data.length = h.length)
  | none => false

theorem test_bobbin_crc : bobbinMay (running []) (bobbinOf (running []) 1 0) false = true := by decide +kernel
theorem test_bobbin_twice : (let k := running [(0, true, false, 0)]; bobbinMay k (bobbinOf k 0 0) true) = true := by decide +kernel
theorem test_bobbin_tally :
    (let k := running []
     let g := bobbinOf k 0 0
     let bad := bobbinOf k 0 1
     let r : Report := ⟨[0], false, 0⟩
     bobbinMay k g true = true ∧ bobbinMay k bad true = true ∧ k.member (mine k).h = some (mine k) ∧
       (match k.tallied r 0 g.data with
        | some (i, xs) => decide (tally k.describe.2 i xs = 0)
        | none => false) = true ∧ ((after .shuttleData (opened k [bad])).m.ctxs[(0 : CtxId)]).cause = .fault) := by decide +kernel

/-- The first word of the member's piece as its neighbour sends it outward. -/
def ringBobbin : ShMsg :=
  let d := List.replicate 4 (0 : Byte)
  msgOf (running []) (fun h => { h with kind := shData, stage := 3, length := 4, crc := (crc32 d).toNat }) d

theorem test_bobbin_owner :
    (let k := running []
     let g := ringBobbin
     let h := shHdr g.hdr
     let m1 := (((opened k [g]).m.takeMsg shData (opened k [g]).m.dataReady).map Prod.snd).getD State.reset.m
     let k' := { k with members := k.members.map fun (y : ShMember) =>
       { y with acc := putSpan 0 [0] y.acc, seen := y.seen ++ [(3, false, false, 0)], kept := y.kept ++ [⟨3, false, 0, 1, 0⟩] } }
     k.stages = [3] ∧ bobbinMay k g true = true ∧ h.inward = false ∧ k.tallied ⟨[0], false, 0⟩ 0 g.data = some (0, [0]) ∧
       k.tallyAt 0 [0] = 0 ∧ k.member (mine k).h = some (mine k) ∧ k.stagePiece 3 0 = (0, 10016) ∧ settled k' = true ∧
       (match ((m1.wake k.path).contribution k (mine k) ⟨[0], false, 0⟩ 0 0 1).2 with
        | .ok v => decide (v = ([0], 0))
        | .error _ => false) = true ∧
       (after .shuttleData (opened k [g])).m.coll k.key = some k') := by decide +kernel

/-- A bobbin or a handshake message sent to member 1. -/
def sentOf (k : Coll) (kind resends : Nat) : ShSent := ⟨4, 0, 1, ({ k.hdr 0 with kind := kind, stage := if kind = shData then 3 else 0 }).pack, [], resends, none⟩

/-- A collective that has sent it. -/
def sending (kind resends : Nat) : Coll := { running [] with sent := [sentOf (running []) kind resends] }

/-- What a module holds when it has taken the next message of a kind. -/
def taken (s : State) (kind : Nat) : Mach := ((s.m.takeMsg kind fun _ => true).map Prod.snd).getD State.reset.m

theorem test_ack :
    (let k := sending shData 0
     let g := msgOf k (fun h => { h with kind := shAck, stage := 3 }) []
     let s := opened k [g]
     let m1 := taken s shAck
     m1.coll (keyOf 0 (shHdr g.hdr)) = some k ∧ k.sent.find? (fun e => m1.answered k g shData e) = k.sent.head? ∧
         settled (running []) = true ∧ (running []).sent = [] ∧ 4 < s.m.shut.nextId ∧ ((after .shuttleAck s).m.coll k.key).map (fun j => j.sent.map ShSent.id) = some []) := by decide +kernel
theorem test_nack :
    (let k := sending shData 0
     let g := msgOf k (fun h => { h with kind := shNack, stage := 3 }) []
     let s := opened k [g]
     let m1 := taken s shNack
     m1.coll (keyOf 0 (shHdr g.hdr)) = some k ∧ k.sent.find? (fun e => m1.answered k g (shHdr g.hdr).refusedKind e) = k.sent.head? ∧
         (shHdr g.hdr).refusedKind = shData ∧ 0 < s.m.num 0x2C00 5 ∧
         s.m.net.rebuilding = false ∧ (m1.shSend 0 (k.rankOf 1) (shHdr (sentOf k shData 0).hdr) []).isSome = true ∧
         ((after .shuttleNack s).m.coll k.key).map (fun j => j.sent.map ShSent.resends) = some [1]) := by decide +kernel
theorem test_nack_handshake :
    (let k := sending shScale 0
     let g := msgOf k (fun h => { h with kind := shNack }) []
     let m1 := taken (opened k [g]) shNack
     m1.coll (keyOf 0 (shHdr g.hdr)) = some k ∧ k.sent.find? (fun e => m1.answered k g (shHdr g.hdr).refusedKind e) = k.sent.head? ∧
       (shHdr g.hdr).refusedKind ≠ shData) := by decide +kernel
theorem test_bobbin_resend :
    (let k := sending shData 0
     (opened k []).m.shut.colls.findSome? (fun k =>
        (k.sent.find? fun e => decide (e.id = 4) && decide ((shHdr e.hdr).kind = shData)).map fun e => (k, e)) =
       some (k, sentOf (running []) shData 0) ∧
     ((opened k []).m.shSend 0 (k.rankOf 1) (shHdr (sentOf k shData 0).hdr) []).isSome = true ∧
     ((after (.bobbinResend 4) (opened k [])).m.coll k.key).map (fun j => j.sent.map ShSent.resends) = some [1]) ∧
    (let k := sending shData 200
     (opened k []).m.num 0x2C00 5 ≤ 200 ∧ ((after (.bobbinResend 4) (opened k [])).m.ctxs[(0 : CtxId)]).cause = .fault) := by
  decide +kernel
theorem test_handshake_resend :
    (let k := sending shScale 0
     let e := sentOf k shScale 0
     let s := (opened k []).on fun m => { m with shut := { m.shut with refused := [(k.key, e)] } }
     s.m.shut.refused.find? (fun (r : CollKey × ShSent) => decide (r.2.id = 4)) = some (k.key, e) ∧ s.m.coll k.key = some k ∧
       (s.m.shSend 0 (k.rankOf 1) (shHdr e.hdr) []).isSome = true ∧ (after (.handshakeResend 4) s).m.shut.refused = []) := by decide +kernel

theorem test_abort_notice :
    (let k := collOf grp 0 .admitted id
     let g := msgOf k (fun h => { h with kind := shAbort, status := 9 }) []
     let m1 := taken (opened k [g]) shAbort
     keyOf 0 (shHdr g.hdr) = k.key ∧ (m1.group 0 (shHdr g.hdr).gid).map (fun d => d.epoch.toNat) = some (shHdr g.hdr).epoch ∧
         ((after .shuttleAbort (opened k [g])).m.ctxs[(0 : CtxId)]).cause = .fault) := by decide +kernel
theorem test_stale_notice :
    (let k := collOf grp 0 .admitted id
     let g := msgOf k (fun h => { h with kind := shStale }) []
     (((opened k [g]).m.takeMsg shStale (fun _ => true)).map fun r => keyOf r.1.ctx (shHdr r.1.hdr)) = some k.key ∧
       (opened k []).m.coll k.key = some k ∧ ((opened k []).m.ctxs[(0 : CtxId)]).st = .enabled) := by decide +kernel
theorem test_coll_timeouts :
    (let k := collOf grp 0 .place id
     ((after (.shuttleAdmitTimeout k.key) (opened k [])).m.ctxs[(0 : CtxId)]).cause = .fault) ∧
    (let k := collOf grp 0 .admitted id
     ((after (.shuttleProgressTimeout k.key) (opened k [])).m.ctxs[(0 : CtxId)]).cause = .fault) := by decide +kernel

theorem test_drover_commit :
    (let k := { collOf grp 5 .admitted fun y => { y with result := some ⟨[], false, 0⟩ } with drover := true }
     let s := opened k []
     s.m.coll k.key = some k ∧ k.members.find? k.mayCommit = some (mine k) ∧ s.m.reachable k.path = true ∧
       s.m.badSpads (if k.newResiduals ⟨[], false, 0⟩ then s.m.srcRanges k (mine k).die 0 k.s.src.count else []) = none) := by
  decide +kernel
theorem test_coll_commit :
    (let k := collOf grp 5 .admitted fun y => { y with result := some ⟨[], false, 0⟩ }
     let s := opened k []
     s.m.coll k.key = some k ∧ k.members.find? k.mayCommit = some (mine k) ∧ k.drover = false ∧ s.m.mayCommit 0 k.slot = true ∧
       s.m.reachable k.path = true ∧ s.m.writesBad (s.m.commitWrites k ⟨[], false, 0⟩ (mine k)) = none ∧
       (s.m.ctxs[(0 : CtxId)]).overflows (emitTargets (ctlOf k.slot.bytes)) (emitId (ctlOf k.slot.bytes)) = none ∧ k.members.length = 1 ∧
       (after (.collectiveCommit k.key) s).m.coll k.key = none) ∧
    (let k := collOf { grp with ring := [(2, 0), (3, 0)], coords := [0, 0] } 5 .admitted fun y => { y with result := some ⟨[], false, 0⟩ }
     k.members.map (fun y => (y.h, y.committed)) = [(0, false), (1, false)] ∧ k.members.find? k.mayCommit = some (mine k)) := by
  decide +kernel

/-- A CONF slot that defines or releases group 3. -/
def confOf (op : Nat) : QSlot :=
  slotOf .conf 64 (op * 2 ^ 64 + 3 * 2 ^ 72 +
    (if op = 0 then 3 * 2 ^ 84 + 0x12 * 2 ^ 86 + 1 * 2 ^ 108 + 1 * 2 ^ 116 + 4096 * 2 ^ 130 + 2 * 2 ^ 162 else 0))

/-- A module with the ring table at 4096 and that slot at the head. -/
def confState (op : Nat) : State :=
  (folded.ctx 0 fun x => { x with queues := Vec.upd x.queues 6 fun _ => [confOf op] }).on fun m =>
    (m.spadWrite 4096 (natLe 2 0x8000 ++ natLe 2 0x8001)).modPool 2 fun p => { p with memory := 4, sizeLog2 := 14, count := 8 }

/-- What a CONF row needs, as one Boolean. -/
def confMay (s : State) (q : QSlot) : Bool :=
  decide (s.m.startable 0 .conf = some q) && s.m.works && s.m.reachable (parseConf q.bytes).path && !s.m.headAhead 0 .conf q && s.m.mayCommit 0 q

theorem test_define_group : confMay (confState 0) (confOf 0) = true ∧ (parseConf (confOf 0).bytes).op = 0 ∧
    ((((confState 0).m.takeHead 0 .conf).wake (parseConf (confOf 0).bytes).path).defineGroup 0 (parseConf (confOf 0).bytes)).toOption.isSome = true ∧
    ((after (.defineGroup 0) (confState 0)).m.group 0 3).map Group.ring = some [(2, 0), (2, 1)] := by decide +kernel
theorem test_release_group :
    (let s := (confState 1).on fun m => { m with shut := { m.shut with groups := [grp] } }
     confMay s (confOf 1) = true ∧ s.m.groupOpen 0 3 = false ∧ (after (.releaseGroup 0) s).m.group 0 3 = none) ∧
    (let s := (confState 1).on fun m => { m with shut := { m.shut with groups := [grp], colls := [collOf grp 0 .admitted id] } }
     s.m.groupOpen 0 3 = true ∧ ((after (.releaseGroup 0) s).m.ctxs[(0 : CtxId)]).cause = .fault) := by decide +kernel

/-! ### The Drover -/

/-- A VAULT slot: shard 5 of generation 1, without bytes. -/
def vaultOf (op len : Nat) : QSlot := slotOf .vault 48 (op * 2 ^ 64 + len * 2 ^ 116 + 5 * 2 ^ 156 + 1 * 2 ^ 188)

/-- A module of a fold with stripe groups of two and that slot at the head. -/
def vaulted (q : QSlot) : State := (foldSlot q).obj (ckptIdx 0) 8 2

/-- A VAULT slot's job, all of it sent. -/
def vaultJob (op : Nat) : VaultJob := ⟨0, vaultOf op 0, [], 3, none, 1, 0, false, 0, none, []⟩

/-- Nothing keeps a STRIPE_WRITE from starting but room. -/
def stripeMay (s : State) (q : QSlot) : Bool :=
  let v := parseVault q.bytes
  !s.m.vaultHot && decide (s.m.vaultHead 0 0 = some q) && decide (s.m.stripeCheck 0 v = none) &&
    (match (((s.m.takeHead 0 .vault).wake v.path).vaultRead 0 q v).2 with
     | .ok (b, _) => decide (b = [])
     | .error _ => false)

theorem test_stripe :
    (let q := vaultOf 0 0
     let s := vaulted q
     stripeMay s q = true ∧ s.m.vaultRoom 0 (s.m.stripeG 0) = true ∧ s.m.ownRank 0 = some 0 ∧
       s.m.rankOf 0 (stripeRank (s.m.stripeG 0) 0 ((0 % s.m.stripeG 0 + 1) % s.m.stripeG 0)) = some (1, 0) ∧ s.m.canReach clsBulk 1 = false ∧
       (let t := s.on fun m => { m with net := { m.net with routes := [(entryIndex false 2 1, 0)] } }
        t.m.canReach clsBulk 1 = true ∧ stripeMay t q = true)) := by decide +kernel
theorem test_stripe_room :
    (let q := vaultOf 0 0
     let s := (vaulted q).on fun m => { m with drover := { m.drover with freeKib := 7 } }
     stripeMay s q = true ∧ s.m.vaultRoom 0 (s.m.stripeG 0) = false ∧ (after (.stripeWrite 0) s).m.drover.vault = 2 ∧
       ((after (.vaultSpaceTimeout 0) s).m.ctxs[(0 : CtxId)]).cause = .fault) := by decide +kernel
theorem test_stripe_closed :
    (let q := vaultOf 0 0
     let s := (vaulted q).on fun m => { m with drover := { m.drover with gens := [⟨7, 1, 3, 2, false, []⟩] } }
     s.m.vaultHead 0 0 = some q ∧ s.m.stripeCheck 0 (parseVault q.bytes) = some (.badSlot, badSlotDetail 8 1)) := by decide +kernel
theorem test_stripe_unreadable :
    (let q := slotOf .vault 48 (4096 * 2 ^ 116 + 5 * 2 ^ 156 + 2 ^ 188)
     let s := (vaulted q).on fun m => { m with mem := { m.mem with badUnits := [0] } }
     let v := parseVault q.bytes
     s.m.vaultHot = false ∧ s.m.vaultHead 0 0 = some q ∧ s.m.stripeCheck 0 v = none ∧
       s.m.vaultRoom (s.m.vaultLen 0 v) (s.m.stripeG 0) = true ∧
       (match (((s.m.takeHead 0 .vault).wake v.path).vaultRead 0 q v).2 with
        | .ok _ => false
        | .error i => i == 102) = true) := by decide +kernel
theorem test_vault_read_bad :
    (let q := vaultOf 1 0
     let x : Shard := ⟨0, 7, 1, 5, 0, 1, 3, 2, 0, 0, sha3 [], [], [9]⟩
     let s := (vaulted q).on fun m => { m with drover := { m.drover with shards := [x], marks := [(9, .lost)] } }
     s.m.vaultHead 0 1 = some q ∧ s.m.dramInWindow 0 0 0 = true ∧ s.m.readShard 0 (parseVault q.bytes) = some x ∧
       x.data.length = (parseVault q.bytes).length ∧ allRead (s.m.codewordsIn x.blocks) = false ∧ some x.rank ≠ s.m.ownRank 0 ∧
       (let y := { x with rank := 0 }
        let t := (vaulted q).on fun m => { m with drover := { m.drover with shards := [y] } }
        t.m.readShard 0 (parseVault q.bytes) = some y ∧ some y.rank = t.m.ownRank 0)) ∧
    (let q := slotOf .vault 48 (2 ^ 64 + 4096 * 2 ^ 116 + 5 * 2 ^ 156 + 2 ^ 188)
     let x : Shard := ⟨0, 7, 1, 5, 0, 0, 3, 2, 0, 0, [], [], []⟩
     let s := (vaulted q).on fun m => { m with drover := { m.drover with shards := [x] } }
     s.m.vaultHead 0 1 = some q ∧ s.m.dramInWindow 0 0 4096 = true ∧ s.m.readShard 0 (parseVault q.bytes) = some x ∧
       x.data.length ≠ (parseVault q.bytes).length) := by decide +kernel
theorem test_vault_read :
    (let q := vaultOf 1 0
     let s := vaulted q
     s.m.vaultHead 0 1 = some q ∧ s.m.dramInWindow 0 0 0 = true ∧ s.m.readShard 0 (parseVault q.bytes) = none ∧
       (s.m.ownRank 0).isSome = true ∧
       (let x : Shard := ⟨0, 7, 1, 5, 0, 0, 3, 2, 0, 0, sha3 [], [], []⟩
        let t := s.on fun m => { m with drover := { m.drover with shards := [x] } }
        t.m.readShard 0 (parseVault q.bytes) = some x ∧ t.m.shardGood x = true ∧ allRead (t.m.codewordsIn x.blocks) = true)) ∧
    (let q := slotOf .vault 48 (2 ^ 64 + 1 * 2 ^ 128 + (2 ^ 40) * 2 ^ 72)
     (vaulted q).m.vaultHead 0 1 = some q ∧ (vaulted q).m.dramInWindow 0 (parseVault q.bytes).dram (parseVault q.bytes).length = false) := by
  decide +kernel
theorem test_retire :
    (let q := vaultOf 2 0
     let s := vaulted q
     s.m.vaultHead 0 2 = some q ∧ s.m.mayCommit 0 q = true ∧ s.m.vaultProtected = false ∧
       (after (.retireGeneration 0) s).m.drover.gens.map Gen.st = [2] ∧
       (let t := s.on fun m => { m with pwr := { m.pwr with straps := 0x8001 } }
        t.m.vaultHead 0 2 = some q ∧ t.m.vaultProtected = true)) := by decide +kernel

/-- A module whose STRIPE_WRITE has all its peers' pieces. -/
def striped (pieces : List Piece) : State :=
  (vaulted (vaultOf 0 0)).on fun m => { m with drover := { m.drover with jobs := [vaultJob 0], pieces := pieces } }

/-- The piece of member 1. -/
def piece1 : Piece := ⟨1, natLe 128 (7 * 2 ^ 456 + 1 * 2 ^ 672 + 5 * 2 ^ 512), [], true, none⟩

theorem test_stripe_commit :
    (let s := striped [piece1]
     let v := parseVault (vaultJob 0).slot.bytes
     s.m.drover.jobs.find? (fun k => decide (k.c = 0)) = some (vaultJob 0) ∧ v.op = 0 ∧ s.m.vaultHot = false ∧ s.m.stripeG 0 ≤ 2 ∧
       s.m.reachable [130] = true ∧ (vaultJob 0).outstanding = 0 ∧ s.m.piecesHere 0 v = true ∧ s.m.mayCommit 0 (vaultJob 0).slot = true) ∧
    ((striped []).m.piecesHere 0 (parseVault (vaultJob 0).slot.bytes) = false ∧
       ((after (.vaultStripeTimeout 0) (striped [])).m.ctxs[(0 : CtxId)]).cause = .fault) := by decide +kernel
theorem test_vault_read_commit :
    (let j := { vaultJob 1 with data := [9, 8] }
     let s := up.on fun m => { m with drover := { m.drover with jobs := [j] } }
     s.m.drover.jobs.find? (fun k => decide (k.c = 0)) = some j ∧ (parseVault j.slot.bytes).op = 1 ∧
       s.m.reachable (parseVault j.slot.bytes).path = true ∧ j.headerSent = false ∧ j.pos = 0 ∧ s.m.mustHold 0 2 = false ∧ s.m.dramPartBad 0 2 = none ∧ s.m.mayCommit 0 j.slot = true ∧
       (after (.vaultReadCommit 0) s).m.dramRead 0 2 = [9, 8]) := by decide +kernel
theorem test_vault_upkeep :
    (let x : Shard := ⟨0, 7, 1, 5, 0, 0, 3, 2, 0, 0, [], [], []⟩
     let s := up.on fun m => { m with drover := { m.drover with shards := [x], gens := [⟨7, 1, 3, 2, false, []⟩] } }
     (after (.retiredGenerationErase ⟨1, [3], []⟩) s).m.drover.shards = []) ∧
    up.m.drover.dieFail.getLsbD 3 = false ∧ up.m.grade ≠ .n ∧ (after (.vaultDieFailure 3) up).m.drover.vault = 1 ∧
    (after (.vaultDieFailure 4) (after (.vaultDieFailure 3) up)).m.drover.vault = 3 ∧
    (after .vaultRebuildDone (after (.vaultDieFailure 3) up)).m.drover.vault = 0 ∧ 12 ∉ up.m.drover.badBlocks ∧
    (after (.vaultRefresh ⟨12, [⟨12, .lost⟩]⟩) up).m.markOf 12 = .lost := by decide +kernel

theorem test_step_boundary :
    (let s := up.ctx 0 fun x => { x with stepHold := .word 4 }
     (s.m.ctxs[(0 : CtxId)]).openWord 4 = false ∧ ((after (.stepBoundary 0) s).m.ctxs[(0 : CtxId)]).step = 1) := by decide +kernel
theorem test_barrier_start :
    (let s := ((grouped.ctx 0 fun x => { x with stepHold := .ready, lastWord := some (doneWord true) }).obj (ckptIdx 0) 2 3)
     let q := barrierSlot s.m 0 3 grp (doneWord true)
     let m := ((s.m.wake [130, 128, 126]).cnt 0xC000 130 (some 0) 1).modCtx 0 fun x => { x with stepHold := .barrier }
     let next := m.modGroup 0 3 fun g => { g with expected := g.expected + 1 }
     s.m.num (ckptIdx 0) 2 = 3 ∧ s.m.works = true ∧ s.m.reachable [130, 128, 126] = true ∧ s.m.prevSettled 0 = true ∧ s.m.drover.jobs = [] ∧
       s.m.foldWaits 0 = false ∧ s.m.unplanned 0 = false ∧ (s.m.ctxs[(0 : CtxId)]).st = .enabled ∧ s.m.group 0 3 = some grp ∧
       s.m.collGroup 0 (parseShut q.bytes) = some (grp, 0) ∧ next.checkColl (next.makeColl 0 q true grp 0) = none) := by decide +kernel

/-- A local slot with one patch still to copy. -/
def frozenSlot : State :=
  up.on fun m => m.modSnap 1 fun x => { x with st := .frozen, uncopied := [(2, 900)], owners := [0] }

theorem test_patch_copy : frozenSlot.m.nextPatch = some (1, 2, 900) ∧ frozenSlot.m.drover.heldWrites = [] ∧
    frozenSlot.m.reachable (130 :: dramPath (2 * patchBytes) patchBytes ++ dramPath (900 * patchBytes) patchBytes) = true ∧
    frozenSlot.m.dramBad (2 * patchBytes) patchBytes = none ∧
    (frozenSlot.on fun m => { m with mem := { m.mem with badUnits := [2 * patchBytes / 64] } }).m.dramBad (2 * patchBytes) patchBytes ≠
      none := by decide +kernel
theorem test_cow_stall :
    (let s := up.on fun m => { m with drover := { m.drover with heldWrites := [⟨0, [1], none, [], []⟩] } }
     s.m.drover.heldWrites ≠ [] ∧ s.m.num 0x2B00 5 < 99 ∧ s.m.reachable [130] = true ∧
       (after (.cowStallOverBound 99) s).m.mgmt.history.head? = some (99 * 65536 + 0xFF09)) := by decide +kernel

/-- Local slot 1 holds a BUDDIED snapshot of step 5 of context 0. -/
def snapped : State :=
  up.on fun m => m.modSnap 1 fun x => { x with
    st := .buddied, step := 5, owners := [0],
    control := Vec.upd x.control 0 fun _ => some ⟨11, 5, 6, [], [], [], []⟩ }

theorem test_rollback : reaches snapped .can (ckptIdx 0) 0x0A (natLe 8 5) = true ∧ (snapped.m.drover.ctxs[(0 : CtxId)]).adopt = none ∧
    snapped.m.rollSource 0 5 = some 1 ∧ snapped.m.ctxIdle 0 = true ∧ snapped.m.rollSource 0 6 = none ∧
    ((after (.ckptRollback .can 0 (natLe 8 5)) snapped).m.drover.ctxs[(0 : CtxId)]).roll = .running := by decide +kernel
theorem test_rollback_done :
    (let s := snapped.on fun m => m.modCkpt 0 fun x => { x with roll := .running, rollSlot := 1 }
     (s.m.drover.slots[(1 : Fin 2)]).control[(0 : CtxId)] = some ⟨11, 5, 6, [], [], [], []⟩ ∧
       (s.m.drover.ctxs[(0 : CtxId)]).restore = none ∧ s.m.reachable (130 :: spadPath (s.m.num (ckptIdx 0) 3) 4096) = true ∧
       ((s.m.wake (130 :: spadPath (s.m.num (ckptIdx 0) 3) 4096)).copyBack 0 1).2 = true ∧
       ((after (.rollbackDone 0 true) s).m.ctxs[(0 : CtxId)]).seed = 11 ∧ ((after (.rollbackDone 0 true) s).m.ctxs[(0 : CtxId)]).expected = 6) := by
  decide +kernel
theorem test_buddy : snapped.m.newestSnap 0 = some 1 ∧ reaches snapped .can (ckptIdx 0) 7 one = true ∧
    reaches snapped .can (ckptIdx 0) 0x0B (natLe 2 4) = true ∧
    ((after (.ckptAdoptHolder .can 0 (natLe 2 4)) snapped).m.drover.ctxs[(0 : CtxId)]).adopt = some 4 := by decide +kernel
theorem test_buddy_stream :
    (let s := ((folded.on fun m => m.modSnap 1 fun x => { x with st := .held, step := 5, owners := [0] }).obj (ckptIdx 0) 4 1)
     let t := s.on fun m => { m with net := { m.net with routes := [(entryIndex false 2 1, 0)] } }
     let k : Fin 2 := 1
     s.m.newestSnap 0 = some k ∧ reaches s .can (ckptIdx 0) 7 one = true ∧ s.m.canReach clsBulk 1 = false ∧
       reaches t .can (ckptIdx 0) 7 one = true ∧ t.m.rankOf 0 (t.m.num (ckptIdx 0) 4) = some (1, 0) ∧ t.m.canReach clsBulk 1 = true ∧
       t.m.dramBad (t.m.snapAddr k (t.m.streamAddr 0 k.val 0)) (min 4096 (t.m.imageLen 0 + controlLen)) = none) := by decide +kernel
theorem test_import_state :
    (let s := snapped.obj (ckptIdx 0) 0x0D 1
     s.m.num (ckptIdx 0) 0x0D = 1 ∧ (s.m.drover.slots[(1 : Fin 2)]).st ≠ .free ∧ (s.m.drover.slots[(1 : Fin 2)]).step ≠ 6 ∧
       reaches s .can (ckptIdx 0) 0x0E (natLe 8 6) = true ∧
       answerOf (after (.ckptImportDone .can 0 (natLe 8 6)) s) = some 0x08000022) := by decide +kernel
theorem test_import :
    (let s := up.obj (ckptIdx 0) 0x0D 1
     s.m.num (ckptIdx 0) 0x0D = 1 ∧ (s.m.drover.slots[(1 : Fin 2)]).st = .free ∧ reaches s .can (ckptIdx 0) 0x0E (natLe 8 5) = true) ∧
    (2 ≤ up.m.num (ckptIdx 0) 0x0D ∧ answerOf (after (.ckptImportDone .can 0 (natLe 8 5)) up) = some 0x08000022) := by decide +kernel

/-- A BULK packet of module 4 for this module, and a STORAGE bundle to module 4. -/
def bulked (ty addr : Nat) (b : Bytes) : State :=
  (up.obj (ckptIdx 0) 0x0D 0).on fun m => { m with net := { m.net with
    bundles := Vec.upd m.net.bundles 2 fun x => { x with role := 3, far := 4 },
    localRx := [⟨mkPacket { ty := ty, cls := clsBulk, addr := addr, length := 4, src := 4, dram := true } b, none⟩] } }

/-- What a BULK row needs: the packet is the next one, bit 43 of its address is clear. -/
def bulkMay (s : State) (ty : Nat) : Bool :=
  s.m.works && (match s.m.takeLocal (s.m.bulkReady ty) with
    | some (p, _) => !bit (hdrOf p).addr 43
    | none => false)

/-- The header of the packet received. -/
def rxHdr (s : State) : Hdr := (s.m.net.localRx.head?.map fun r => hdrOf r.pkt).getD {}

theorem test_bulk_put :
    (let s := bulked tyPut (1280 * 2 ^ 30) [1, 2, 3, 4]
     bulkMay s tyPut = true ∧ s.m.importSlot (rxHdr s) = true ∧ s.m.dramPartBad (rxHdr s).addr 4 = none ∧
       (after .bulkPutReceive s).m.dramRead (1280 * 2 ^ 30) 4 = [1, 2, 3, 4]) ∧
    (let s := bulked tyPut 0 [1, 2, 3, 4]
     bulkMay s tyPut = true ∧ s.m.importSlot (rxHdr s) = false ∧ s.m.buddySource (rxHdr s) = none) := by decide +kernel
theorem test_bulk_get :
    (let s := (bulked tyGet (1280 * 2 ^ 30) []).on fun m => m.modSnap 0 fun x => { x with st := .buddied }
     bulkMay s tyGet = true ∧ s.m.fromStorage (rxHdr s) = true ∧ s.m.inSlot 0 (rxHdr s).addr (rxHdr s).length = true ∧
       (match (s.m.snapFetchAll 0 (rxHdr s).addr (rxHdr s).length none).2 with
        | .ok b => b.length == 4
        | .error _ => false) = true ∧
       (let t := s.on fun m => m.modBundle 2 fun b => { b with role := 0 }
        bulkMay t tyGet = true ∧ t.m.fromStorage (rxHdr t) = false ∧ t.m.bulkCtx (rxHdr t) = none)) := by decide +kernel

/-- A BULK packet of member 1 of the stripe group of fold 7, with buffers for the Drover. -/
def striping (ty addr : Nat) (b : Bytes) : State :=
  ((((folded.obj (ckptIdx 0) 8 2).obj (ckptIdx 0) 5 1).obj 0x29C6 21 8).on fun m =>
    (m.modPool 6 fun p => { p with memory := 1, sizeLog2 := 14, count := 8 }).modNet fun n => { n with
      localRx := [⟨mkPacket { ty := ty, cls := clsBulk, addr := addr, length := 4, src := 1, fold := 7, dram := true } b, none⟩] })

theorem test_bulk_piece :
    (let s := striping tyPut (2 ^ 43 + 2 ^ 39 + pieceHdrOff) (natLe 44 (2 ^ 320))
     (match s.m.takeLocal (s.m.bulkReady tyPut) with
      | some (_, m1) => decide (m1.stripePeer (rxHdr s) = some (0, 1))
      | none => false) = true ∧ bit (rxHdr s).addr 43 = true ∧ bits (rxHdr s).addr 42 39 = 1 ∧ opensPiece (rxHdr s) = true ∧
       (after .bulkPutReceive s).m.drover.pieces.map Piece.sender = [1]) := by decide +kernel
theorem test_bulk_buddy :
    (let s := striping tyPut (up.m.slotBase 2) [1, 2, 3, 4]
     bulkMay s tyPut = true ∧ s.m.inSlot 2 (rxHdr s).addr 4 = true ∧ s.m.buddySource (rxHdr s) = some 0 ∧
       s.m.dramPartBad (rxHdr s).addr 4 = none) ∧
    (let s := striping tyGet (up.m.slotBase 2) []
     let h := rxHdr s
     bulkMay s tyGet = true ∧ s.m.fromStorage h = false ∧ s.m.bulkCtx h = some 0 ∧
       (s.m.ctxFold 0).bind (fun f => f.rankAt h.src) = some 1 ∧ s.m.inSlot 2 h.addr h.length = true ∧ s.m.dramBad h.addr h.length = none) := by
  decide +kernel
theorem test_bulk_vault :
    (let x : Shard := ⟨0, 7, 1, 5, 0, 0, 3, 2, 0, 0, sha3 [], [], []⟩
     let s := (striping tyGet (2 ^ 43 + 2 ^ 39) []).on fun m => { m with drover := { m.drover with shards := [x] } }
     (match s.m.takeLocal (s.m.bulkReady tyGet) with
      | some (_, m1) => decide (m1.stripePeer (rxHdr s) = some (0, 1)) && decide (m1.shardAt (m1.foldId 0) 1 5 false = some x) && m1.shardGood x &&
          allRead (m1.codewordsIn (x.touched true 0 128))
      | none => false) = true) := by decide +kernel

/-! ### A codeword of the link code, worked out by hand -/

/-- A fold that evaluates its accumulator at each step. -/
def forced {n : Nat} {A : Type} (f : BitVec n → A → BitVec n) : BitVec n → List A → BitVec n
  | a, [] => a
  | a, x :: xs => if a.toNat < 2 ^ n then forced f (f a x) xs else a

theorem forced_eq {n : Nat} {A : Type} (f : BitVec n → A → BitVec n) (l : List A) : ∀ a, l.foldl f a = forced f a l := by
  induction l with
  | nil => intro a; rfl
  | cons x xs ih => intro a; simp [forced, a.isLt, ih]

/-- The marker of a codeword without data that acknowledges flit 4,095, its CRC-16 included. -/
def idleMarker : Nat := 111829127832535040

/-- The first six symbols of that codeword, and its 30 parity symbols; the 508 symbols between them are 0. -/
def idleHead : List (BitVec 10) := [0, 0, 256, 1023, 331, 99]
def idleParity : List (BitVec 10) :=
  [717, 378, 217, 955, 202, 687, 939, 147, 249, 487, 705, 354, 641, 433, 82, 665, 301, 171, 650, 45, 754, 963, 786, 624,
   125, 798, 170, 668, 195, 1021]
def idleWord : List (BitVec 10) := idleHead ++ (List.replicate 508 0 ++ idleParity)

theorem gfDouble_xor (a b : BitVec 10) : gfDouble (a ^^^ b) = gfDouble a ^^^ gfDouble b := by
  unfold gfDouble
  rw [BitVec.getLsbD_xor, BitVec.shiftLeft_xor_distrib]
  cases a.getLsbD 9 <;> cases b.getLsbD 9 <;> simp
  · ac_rfl
  · ac_rfl
  · rw [show a <<< 1 ^^^ 9#10 ^^^ (b <<< 1 ^^^ 9#10) = a <<< 1 ^^^ b <<< 1 ^^^ (9#10 ^^^ 9#10) by ac_rfl]; simp

theorem mulGo_double (f : Nat) (a b : BitVec 10) : gfMulGo f (gfDouble a) b = gfDouble (gfMulGo f a b) := by
  induction f generalizing a b with
  | zero => exact (by decide : (0 : BitVec 10) = gfDouble 0)
  | succ f ih =>
    simp only [gfMulGo, ih, gfDouble_xor]
    split
    · rfl
    · rw [show gfDouble (0 : BitVec 10) = 0 by decide]

theorem mulGo_xor (f : Nat) (a c b : BitVec 10) : gfMulGo f (a ^^^ c) b = gfMulGo f a b ^^^ gfMulGo f c b := by
  induction f generalizing a c b with
  | zero => exact (BitVec.xor_self).symm
  | succ f ih =>
    simp only [gfMulGo, ih, gfDouble_xor]
    split
    · ac_rfl
    · simp

/-- The n-fold product with x. -/
def times (x : BitVec 10) : Nat → BitVec 10 → BitVec 10
  | 0, a => a
  | n + 1, a => times x n (gfMul a x)

theorem times_lin (x : BitVec 10) (n : Nat) : (∀ a c, times x n (a ^^^ c) = times x n a ^^^ times x n c) ∧
    (∀ a, times x n (gfDouble a) = gfDouble (times x n a)) ∧ times x n 0 = 0 := by
  induction n with
  | zero => exact ⟨fun _ _ => rfl, fun _ => rfl, rfl⟩
  | succ n ih =>
    refine ⟨fun a c => ?_, fun a => ?_, ?_⟩
    · simp only [times, gfMul, mulGo_xor, ih.1]
    · simp only [times, gfMul, mulGo_double, ih.2.1]
    · have : gfMul 0 x = 0 := by
        have := mulGo_xor 10 0 0 x
        simpa [gfMul] using this
      simp only [times, this, ih.2.2]

theorem times_mul (x : BitVec 10) (n f : Nat) (a b : BitVec 10) : times x n (gfMulGo f a b) = gfMulGo f (times x n a) b := by
  induction f generalizing a b with
  | zero => exact (times_lin x n).2.2
  | succ f ih =>
    simp only [gfMulGo, (times_lin x n).1, ih, (times_lin x n).2.1]
    split
    · rfl
    · rw [(times_lin x n).2.2]

theorem one_mul : ∀ a : BitVec 10, gfMul 1 a = a := by decide +kernel

theorem times_eq (x : BitVec 10) (n : Nat) (a : BitVec 10) : times x n a = gfMul (times x n 1) a := by
  conv => lhs; rw [← one_mul a]
  exact times_mul x n 10 1 a

theorem times_add (x : BitVec 10) (m n : Nat) (a : BitVec 10) : times x (m + n) a = times x n (times x m a) := by
  induction m generalizing a with
  | zero => simp [times]
  | succ m ih => rw [Nat.succ_add]; simp only [times, ih]

/-- x to the power n, by halving. -/
def pw (x : BitVec 10) : Nat → Nat → BitVec 10
  | 0, _ => 1
  | f + 1, n => let h := pw x f (n / 2); if n % 2 = 1 then gfMul (gfMul h h) x else gfMul h h

theorem pw_eq (x : BitVec 10) (f n : Nat) (h : n < 2 ^ f) : times x n 1 = pw x f n := by
  induction f generalizing n with
  | zero => have : n = 0 := by simpa using h
            subst this; rfl
  | succ f ih =>
    have hd := ih (n / 2) (by rw [Nat.pow_succ] at h; omega)
    have two : times x (n / 2 + n / 2) 1 = gfMul (pw x f (n / 2)) (pw x f (n / 2)) := by
      rw [times_add, times_eq, hd]
    simp only [pw]
    split
    · have e : n = (n / 2 + n / 2) + 1 := by omega
      conv => lhs; rw [e, times_add, two]
      rfl
    · have e : n = n / 2 + n / 2 := by omega
      conv => lhs; rw [e]
      exact two

theorem zeros_horner (x : BitVec 10) (n : Nat) (a : BitVec 10) :
    (List.replicate n (0 : BitVec 10)).foldl (fun acc c => gfMul acc x ^^^ c) a = times x n a := by
  induction n generalizing a with
  | zero => rfl
  | succ n ih =>
    rw [List.replicate_succ, List.foldl_cons, ih, times, show gfMul a x ^^^ (0 : BitVec 10) = gfMul a x from BitVec.xor_zero]

/-- One syndrome of the idle codeword, without its zeros. -/
def idleSyndrome (j : Nat) : BitVec 10 :=
  let x := gfExp j
  let f := fun (acc c : BitVec 10) => gfMul acc x ^^^ c
  forced f (gfMul (pw x 9 508) (forced f 0 idleHead)) idleParity

theorem idle_syndromes : (List.range 30).all (fun j => decide (idleSyndrome j = 0)) = true := by decide +kernel

theorem idle_rs : rsDecode idleWord = some (idleWord, 0) := by
  have h : (syndromes idleWord).all (fun x => decide (x = 0)) = true := by
    rw [List.all_eq_true]
    intro y hy
    simp only [syndromes, List.mem_map] at hy
    obtain ⟨j, hj, rfl⟩ := hy
    have := List.all_eq_true.mp idle_syndromes j hj
    rw [decide_eq_true_eq] at this ⊢
    refine Eq.trans ?_ this
    rw [idleWord, List.foldl_append, List.foldl_append, zeros_horner, times_eq, pw_eq _ 9 508 (by decide), forced_eq, forced_eq]
    rfl
  have len : idleWord.length = 544 := by
    rw [idleWord, List.length_append, List.length_append, List.length_replicate]
    rfl
  rw [rsDecode, if_neg (fun n => n len)]
  exact if_pos h

theorem flat_zeros (n : Nat) : (List.replicate n (0 : BitVec 10)).flatMap (fun x => natBits 10 x.toNat) = List.replicate (10 * n) false := by
  induction n with
  | zero => rfl
  | succ n ih =>
    rw [List.replicate_succ, List.flatMap_cons, ih, Nat.mul_succ, Nat.add_comm, List.replicate_add]
    rfl

theorem idle_bits : messageBits idleWord = natBits 58 idleMarker ++ List.replicate 5082 false := by
  have h : idleWord.take 514 = idleHead ++ List.replicate 508 0 := by
    rw [idleWord, ← List.append_assoc, List.take_left' (by rw [List.length_append, List.length_replicate]; rfl)]
  rw [messageBits, h, List.flatMap_append, flat_zeros, show (5082 : Nat) = 2 + 10 * 508 from rfl, ← List.replicate_append_replicate,
    ← List.append_assoc]
  congr 1

theorem idle_descramble (n : Nat) : descramble 0 (List.replicate n false) = (0, List.replicate n false) := by
  induction n with
  | zero => rfl
  | succ n ih =>
    rw [List.replicate_succ, descramble]
    have : (BitVec.ofNat 58 ((0 : BitVec 58).toNat * 2 + if false = true then 1 else 0)) = 0 := by decide
    rw [this, ih]
    rfl

theorem idle_blocks (k n : Nat) : blocksOf k 0 (List.replicate (66 * k + n) false) = (0, List.replicate k ⟨0, 0⟩) := by
  induction k with
  | zero => rfl
  | succ k ih =>
    have e : 66 * (k + 1) + n - 66 = 66 * k + n := by omega
    have h : min 64 (66 * (k + 1) + n - 2) = 64 := by omega
    have g : min 2 (66 * (k + 1) + n) = 2 := by omega
    rw [blocksOf, List.drop_replicate, List.take_replicate, List.drop_replicate, List.take_replicate, e, h, g, idle_descramble, ih]
    rfl

theorem natBits_zero (k : Nat) : natBits k 0 = List.replicate k false := by
  induction k with
  | zero => rfl
  | succ k ih => rw [natBits, Nat.zero_div, ih, List.replicate_succ]; rfl

theorem idle_covered (marker k : Nat) :
    coveredBits marker (List.replicate k ⟨0, 0⟩) = natBits 42 marker ++ List.replicate (66 * k) false := by
  rw [coveredBits]
  congr 1
  induction k with
  | zero => rfl
  | succ k ih =>
    rw [List.replicate_succ, List.flatMap_cons, ih, Nat.mul_succ, Nat.add_comm (66 * k), List.replicate_add, natBits_zero,
      show ((0 : BitVec 64)).toNat = 0 from rfl, natBits_zero, List.replicate_append_replicate]

theorem idle_crc : forced crc16Bit 0xFFFF (natBits 42 idleMarker ++ List.replicate 5082 false) = BitVec.ofNat 16 (bits idleMarker 57 42) := by
  decide +kernel

/-- The idle codeword is good, acknowledges flit 4,095 and holds no data. -/
theorem idle_codeword : decodeCodeword 0 idleWord = ⟨true, 0, idleMarker, List.replicate 77 ⟨0, 0⟩, 0⟩ := by
  have hm : bitsNat ((messageBits idleWord).take 58) = idleMarker := by
    rw [idle_bits, List.take_left' (by rfl)]
    decide +kernel
  have hd : (messageBits idleWord).drop 58 = List.replicate (66 * 77 + 0) false := by
    rw [idle_bits, List.drop_left' (by rfl)]
  have hc : crc16 (natBits 42 idleMarker ++ List.replicate (66 * 77) false) = BitVec.ofNat 16 (bits idleMarker 57 42) := by
    rw [crc16, forced_eq, idle_crc]
  simp only [decodeCodeword, idle_rs, Option.map_some, Option.getD_some, hm, hd, idle_blocks, idle_covered, hc]
  rfl


/-! ### Fabric links -/

/-- A link of a running module as a function makes it. -/
def linked (f : Link → Link) : State := up.link 5 f

/-- Its link. -/
def lk (s : State) : Link := s.m.links[(5 : LinkId)]

/-- A training content with its CRC: far coordinates 1, link tag 7, protocol level 1. -/
def contentOf (n : Nat) : BitVec 256 :=
  let k := 7 * 2 ^ 162 + 1 * 2 ^ 154 + 1 * 2 ^ 128 + 0xF * 2 ^ 108 + n
  BitVec.ofNat 256 (k + contentCrc k * 2 ^ 240)

/-- A training frame of a content received on lane 0, asking for nothing. -/
def frameOf (n : Nat) : Instr := .trainingFrame 5 ⟨0, frameBits (contentOf n), (3, 0)⟩

theorem test_frame_content : frameContent (frameBits (contentOf 0)) = some (contentOf 0) ∧
    (frameBits (contentOf 0)).take 32 = List.replicate 20 true ++ List.replicate 12 false ∧
    frameContent ((frameBits (contentOf 0)).map not) = none ∧ (frameBits (contentOf 0)).length = 320 := by decide +kernel
theorem test_frame_inverted :
    (let s := linked fun k => { k with st := .exchange, inverted := 1 }
     (lk s).inverted.getLsbD 0 = true ∧ s.m.reachable [linkIsland 5] = true ∧
       (lk (after (.trainingFrame 5 ⟨0, (frameBits (contentOf 0)).map not, (3, 0)⟩) s)).nbr = contentOf 0 ∧
       (lk (after (frameOf 0) s)).st = .exchange) := by decide +kernel

/-- A link of a bundle to module 1, in a state. -/
def bundled (st : LinkState) : State :=
  (linked fun k => { k with st := st }).on fun m =>
    { m with net := { m.net with bundles := Vec.upd m.net.bundles 2 fun b => { b with role := 1, far := 1, tag := 7, planned := 2 ^ 5 } } }

theorem test_train_start : (lk (after (.linkSignalDetect 5) (linked fun k => { k with st := .detect }))).st = .baseAlign ∧
    (lk (after (.lossOfSignal 5) (linked fun k => { k with st := .l0 }))).st = .detect ∧
    ([2, 0, 1, 3] : List (Fin 4)).Nodup ∧
    (lk (after (.baseAlignComplete 5 [2, 0, 1, 3] 1 32) (linked fun k => { k with st := .baseAlign }))).st = .exchange ∧
    (lk (after (.baseAlignComplete 5 [2, 0, 1, 3] 1 33) (linked fun k => { k with st := .baseAlign }))).st = .detect := by decide +kernel
theorem test_frame_crc : (let n := (contentOf 0).toNat; bits n 255 240 = contentCrc (n % 2 ^ 240)) ∧
    (let n := (contentOf 0 + 1).toNat; bits n 255 240 ≠ contentCrc (n % 2 ^ 240)) := by decide +kernel
theorem test_frame_exchange : (bundled .exchange).m.identify 5 (contentOf 0).toNat = (some 2, 0, false) ∧
    (linked fun k => { k with st := .exchange }).m.identify 5 (contentOf 0).toNat = (none, 1, false) ∧
    (lk (after (frameOf 0) (bundled .exchange))).st = .equalise ∧
    (lk (after (frameOf 0) (linked fun k => { k with st := .exchange }))).st = .held := by decide +kernel
theorem test_frame_equalise : bits (contentOf (3 * 2 ^ 100)).toNat 101 100 = 3 ∧
    (let n := (contentOf (3 * 2 ^ 100)).toNat; bits n 255 240 = contentCrc (n % 2 ^ 240)) ∧
    (lk (after (frameOf (3 * 2 ^ 100)) (linked fun k => { k with st := .equalise }))).eqQuiet[(0 : Fin 4)] = 1 ∧
    (lk (after (frameOf 0) (linked fun k => { k with st := .retrain }))).st = .equalise := by decide +kernel
theorem test_equalise_step :
    (lk (after (.equaliseConverged 5 [1]) (linked fun k => { k with st := .equalise, eqQuiet := Vector.replicate 4 64 }))).st = .check ∧
    (lk (after (.rateStepSwitch 5) (linked fun k => { k with st := .check, stepReady := true, stepSeen := Vector.replicate 4 8, targetRate := 2 }))).rate = 2 ∧
    (lk (after (.rateStepLocked 5) (linked fun k => { k with st := .rateStep }))).st = .equalise ∧
    (lk (after (.linkTrainTimeout 5) (linked fun k => { k with st := .check }))).st = .detect ∧
    (lk (after (.linkCwBadLimit 5) (linked fun k => { k with st := .l0 }))).st = .retrain ∧
    (lk (after (.linkRetrainHoldExpiry 5) (linked fun k => { k with st := .retrain }))).st = .detect := by decide +kernel
theorem test_check :
    (let k := lk (linked fun k => { k with st := .check })
     k.st = .check ∧ k.stepReady = false ∧ k.checkOwn = none ∧ k.checkNbr = none ∧ k.fromRetrain = false ∧ k.fromLs = false) ∧
    (let s := linked fun k => { k with st := .check, checkOwn := some true, nbr := contentOf 0 }
     s.m.rateBelow 5 (lk s).rate = none ∧ (lk (after (.checkBlock 5 true) s)).st = .l0 ∧ (lk (after (.checkBlock 5 false) s)).st = .detect) ∧
    (let s := linked fun k => { k with st := .check, checkOwn := some true, nbr := contentOf 0, rate := 2 }
     (s.m.rateBelow 5 2).isSome = true ∧ (lk (after (.checkBlock 5 false) s)).st = .rateStep) := by decide +kernel

/-- The IDENT fragments of a content. -/
def fragments (n : Nat) : Sparse Nat := (List.range 8).map fun f => (f, bits n (32 * f + 31) (32 * f))

theorem test_check_identity :
    (let n := (contentOf 0).toNat
     let s := linked fun k => { k with st := .check, fromRetrain := true, nbr := contentOf (2 ^ 128), ident := fragments n }
     (lk s).identContent = some n ∧ identityOf n ≠ identityOf (lk s).nbr.toNat ∧ (lk s).checkOwn = none ∧
       (lk (after (.linkCheckEnd 5) s)).st = .held ∧ (lk (after (.linkCheckEnd 5) s)).heldReason = 1) ∧
    (let s := linked fun k => { k with st := .check, fromLs := true, nbr := contentOf 0, ident := fragments (contentOf 0).toNat }
     (lk s).identContent.map identityOf = some (identityOf (lk s).nbr.toNat) ∧
       (after (.linkCheckEnd 5) s).m.out.head? = some (.checkBlock 5 true)) ∧
    (let s := linked fun k => { k with st := .check, checkOwn := some true, targetRate := 2 }
     ¬((lk s).fromRetrain = true ∨ (lk s).fromLs = true ∨ (lk s).fallback = true ∨ (lk s).targetRate ≤ (lk s).rate) ∧
       (lk (after (.checkBlock 5 true) s)).stepReady = true) ∧
    (let s := linked fun k => { k with st := .check, checkOwn := some true, retrainHeld := true }
     (lk (after (.checkBlock 5 true) s)).heldReason = 4) := by decide +kernel
theorem test_frame_step :
    (let s := linked fun k => { k with st := .check, stepReady := true, targetRate := 2 }
     let c := contentOf (13 * 2 ^ 102 + 2 * 2 ^ 106)
     bits c.toNat 105 102 = 13 ∧ bits c.toNat 107 106 = 2 ∧
       (lk (after (frameOf (13 * 2 ^ 102 + 2 * 2 ^ 106)) s)).stepSeen[(0 : Fin 4)] = 1) := by decide +kernel
theorem test_far_end :
    (let s := (linked fun k => { k with st := .test }).obj 0x2605 0x18 5
     s.m.num 0x2605 0x18 = 5 ∧ s.m.reachable [linkIsland 5] = true ∧
       (after (.codewordReceive 5 [7]) s).m.out.head? = some (.looped 5 [7])) := by decide +kernel
theorem test_codeword_bad : (decodeCodeword 0 []).good = false ∧
    (lk (after (.codewordReceive 5 []) (linked fun k => { k with st := .l0 }))).sendNak = true := by decide +kernel
theorem test_codeword_good :
    let k := lk (linked fun k => { k with st := .l0 })
    k.st = .l0 ∧ k.rxScram = 0 ∧ (decodeCodeword 0 idleWord).good = true ∧
      (∀ b ∈ (decodeCodeword 0 idleWord).blocks, b.sync ≠ 1 ∧ (b.sync = 2 → bits b.payload.toNat 63 56 = 0)) ∧
      bits (decodeCodeword 0 idleWord).marker 29 28 = 1 ∧
      (BitVec.ofNat 12 (bits (decodeCodeword 0 idleWord).marker 41 30) - k.lastAck).toNat ≤ (k.txSeq - 1 - k.lastAck).toNat := by
  simp only [idle_codeword]
  refine ⟨by decide +kernel, by decide +kernel, trivial, ?_, by decide +kernel, by decide +kernel⟩
  intro b hb
  rw [List.eq_of_mem_replicate hb]
  decide
theorem test_ack_timeout :
    (let s := linked fun k => { k with st := .l0, replay := [⟨0, []⟩] }
     (lk s).replays < s.m.num 0x2630 6 ∧ (after (.linkAckTimeout 5) s).m.out.head? = some (.linkReplay 5 0)) ∧
    (let s := linked fun k => { k with st := .l0, replay := [⟨0, []⟩], replays := 9999 }
     s.m.num 0x2630 6 ≤ 9999 ∧ (lk (after (.linkAckTimeout 5) s)).st = .retrain) := by decide +kernel

theorem test_l1 :
    (let s := linked fun k => { k with st := .l0 }
     s.m.mayL1 5 = true ∧ (after (.l1IdleTimeout 5) s).m.out.head? = some (.power 5 1) ∧ (lk (after (.l1Req 5) s)).st = .l1) ∧
    (let s := linked fun k => { k with st := .l0, reqSent := true }
     (lk (after (.l1Req 5) s)).st = .l1 ∧ (lk (after (.l1Ack 5) s)).st = .l1 ∧ (lk (after (.l1Nak 5) s)).reqSent = false) ∧
    (let s := linked fun k => { k with st := .l0, replay := [⟨0, []⟩] }
     s.m.mayL1 5 = false ∧ (after (.l1Req 5) s).m.out.head? = some (.power 5 3)) ∧
    (lk (after (.l1Exit 5) (linked fun k => { k with st := .l1 }))).st = .l0 := by decide +kernel
theorem test_ls :
    (let s := linked fun k => { k with st := .l0 }
     (lk s).flows = true ∧ (lk s).quiet = true ∧ reaches s .can 0x2605 0x21 [2] = true ∧
       ((after (.powerRequestLs .can 5) s).m.wantsLs 5 = true ∧ (lk (after (.lsAck 5) (after (.powerRequestLs .can 5) s))).st = .ls)) ∧
    (linked fun k => { k with st := .l0, replay := [⟨0, []⟩] }).m.links[(5 : LinkId)].quiet = false ∧
    (let s := linked fun k => { k with st := .ls }
     reaches s .can 0x2605 0x21 [0] = true ∧ (lk s).fromLs = false ∧ (lk (after (.powerRequestL0 .can 5) s)).fromLs = true ∧
       (lk (after (.lsWake 5) s)).fromLs = true ∧ (after (.lsWake 5) s).m.out.length = s.m.out.length + 4 ∧
       (lk (after (.rateStepLocked 5) (after (.lsWake 5) s))).st = .equalise) ∧
    up.m.wantsLs 5 = false ∧
    (let s := (linked fun k => { k with st := .l0, replay := [⟨0, []⟩] }).obj 0x2605 0x21 2
     s.m.wantsLs 5 = true ∧ (lk s).flows = true ∧ (lk s).replay ≠ [] ∧ (after (.lsReq 5) s).m.out.head? = some (.power 5 6) ∧
       (after (.lsNak 5) s).m.out.head? = some (.power 5 4)) ∧
    (lk (after (.lsReq 5) (linked fun k => { k with st := .l0 }))).st = .ls ∧
    (after (.l1Keepalive 5) (linked fun k => { k with st := .l1 })).m.out.head? = some (.idle 5) ∧
    (lk (after (.lsWakeTimeout 5) (linked fun k => { k with st := .check, fromLs := true }))).st = .detect := by decide +kernel
theorem test_link_test :
    (let s := linked fun k => { k with st := .test }
     reaches s .can 0x2605 0x18 [0] = true ∧ (lk (after (.testMode .can 5 [0]) s)).st ≠ .test ∧
       (lk (after (.linkReset .can 5 one) s)).st ≠ .test) ∧ bits (2 * 2 ^ 28 + 4) 31 28 = 2 := by decide +kernel
theorem test_link_objects :
    (let s := linked fun k => { k with st := .disabled }
     reaches s .can 0x2605 2 [1] = true ∧ (s.m.setObj 0x2605 2 (.num 1)).mayTrain 5 = true ∧ (lk (after (.linkEnable .can 5) s)).st = .detect ∧
       reaches s .can 0x2605 0x18 [1] = true ∧ (lk (after (.testMode .can 5 [1]) s)).st = .test ∧
       answerOf (after (.testMode .can 5 [6]) s) = some 0x06090030) ∧
    (let s := linked fun k => { k with st := .l0 }
     reaches s .can 0x2605 2 [0] = true ∧ (lk (after (.linkDisable .can 5) s)).st = .disabled ∧ reaches s .can 0x2605 0x22 one = true ∧
       answerOf (after (.testMode .can 5 [1]) s) = some 0x08000022 ∧ reaches s .can 0x2605 0x19 (natLe 4 (2 * 2 ^ 28 + 4)) = true ∧
       answerOf (after (.inject .can 5 (natLe 4 (3 * 2 ^ 28))) s) = some 0x06090030) := by decide +kernel

/-! ### The fabric network -/

/-- Link 5 in L0 as the member of open bundle 2, with a function of the link. -/
def member (f : Link → Link) : State :=
  (linked fun k => f { k with st := .l0 }).on fun m =>
    { m with net := { m.net with bundles := Vec.upd m.net.bundles 2 fun b => { b with role := 1, far := 1, st := .up, members := [5] } } }

/-- An ACK of module 1 for a module. -/
def ackPkt (dst : Coord) (bseq : Nat) : Packet := mkPacket { ty := tyAck, cls := clsRsp, dst := dst, src := 1, bseq := bseq } []

theorem test_packet_no_bundle :
    (let s := linked fun k => { k with arrived := [ackPkt 0 0] }
     (lk s).arrived = [ackPkt 0 0] ∧ vcOf (hdrOf (ackPkt 0 0)).cls (hdrOf (ackPkt 0 0)).sub = some 2 ∧ s.m.bundleOf 5 = none ∧ s.m.reachable (linkPath 5) = true ∧
       (lk (after (.packetReceive 5) s)).owed[(2 : VcId)] = 1) := by decide +kernel
theorem test_packet_local :
    (let s := member fun k => { k with arrived := [ackPkt 0 0] }
     let h := hdrOf (ackPkt 0 0)
     s.m.bundleOf 5 = some 2 ∧ BundleSt.open (s.m.net.bundles[(2 : BundleId)]).st = true ∧
       BitVec.ofNat 12 h.bseq = (s.m.net.bundles[(2 : BundleId)]).rxSeq[(2 : VcId)] ∧ h.bseq < 4096 ∧
       ((s.m.net.bundles[(2 : BundleId)]).members.all fun j => decide ((s.m.links[j]).inBuf = [])) = true ∧ malformed h = false ∧
       (s.m.net.bundles[(2 : BundleId)]).admits h = true ∧ h.dst = s.m.net.own ∧ pktCrcOk (ackPkt 0 0) = true ∧ h.ty = tyAck ∧
       (s.m.net.bundles[(2 : BundleId)]).gone = [] ∧
       (after (.packetReceive 5) s).m.net.localRx = [⟨ackPkt 0 0, some (5, 2)⟩]) := by decide +kernel
theorem test_packet_forward :
    (let x : Held := ⟨2, ackPkt 2 0⟩
     let s := (member fun k => { k with inBuf := [x] }).on fun m => m.modNet fun n => { n with routes := [(entryIndex false 0 2, 0x20)] }
     let e := s.m.routeOf x.pkt
     s.m.reachable (linkPath 5) = true ∧ s.m.bundleOf 5 = some 2 ∧ s.m.headAt (some 5) 2 = some x ∧ outSub e ≠ 3 ∧ outBundle e = 2 ∧
       vcOf (hdrOf x.pkt).cls (outSub e) = some 2 ∧ s.m.hasTurn 2 2 (some 5) = true ∧ (s.m.net.bundles[(2 : BundleId)]).gone = [] ∧
       (((((s.m.wake [126]).wake (linkPath 5)).leaveInput 5 x).nextSeq 2 2).spray 2 2 (pktFlits (rehop x.pkt 0 1 false 0))) = some 5 ∧
       (lk (after (.packetForward (some 5) ⟨2, none⟩) s)).txQ.length = 1 ∧
       (after (.packetForward (some 5) ⟨2, some .routeParity⟩) s).m.links[(5 : LinkId)].txQ = []) := by decide +kernel
theorem test_packet_inject :
    (let x : Held := ⟨2, ackPkt 2 0⟩
     let s := (member id).on fun m => m.modNet fun n => { n with
       inject := [x], routes := [(entryIndex false 0 2, 0x20)], turns := [(turnIndex false 16 0 0, 0xFFFF)] }
     let p := mkPacket { hdrOf x.pkt with rbank := s.m.net.bank } x.pkt.payload
     let h := hdrOf p
     let e := s.m.routeOf p
     s.m.reachable [126] = true ∧ s.m.headAt none 2 = some x ∧ h.dst ≠ s.m.net.own ∧ outSub e ≠ 3 ∧ outBundle e = 2 ∧
       (Sparse.get (0 : BitVec 16) (turnIndex h.rbank 16 h.sub (outSub e)) s.m.net.turns).getLsbD 2 = true ∧
       BundleSt.open (s.m.net.bundles[(2 : BundleId)]).st = true ∧ vcOf h.cls (outSub e) = some 2 ∧
       s.m.outputOf s.m.net.bank (hdrOf x.pkt) = some (2, 2) ∧ s.m.hasTurn 2 2 none = true ∧
       (s.m.wake [126]).spray 2 2 (pktFlits (rehop p (outSub e) h.hops h.cm 0)) = some 5 ∧
       (after (.packetForward none ⟨2, none⟩) s).m.net.inject = []) := by decide +kernel
theorem test_arbitrate :
    (let s := member fun k => { k with txQ := [⟨2, ackPkt 1 0⟩] }
     let k := lk s
     let ready := fun (h : Held) => decide (s.m.uncredited 2 h.vc < 2047)
     s.m.reachable (linkPath 5) = true ∧ s.m.bundleOf 5 = some 2 ∧ k.st = .l0 ∧ k.txNow = none ∧
       (k.txQ.all fun h => decide (h.vc ≠ 7)) = true ∧ ¬ k.mgtSince + 10000 ≤ s.m.now ∧
       ((k.drr (fun (i : Fin 4) => bits (s.m.num 0x2500 0x0A) (8 * i.val + 7) (8 * i.val)) ready 66).map fun r => (r.1, r.2.1)) =
         some (2, ⟨2, ackPkt 1 0⟩) ∧ k.replay.length + (flitsOf (ackPkt 1 0)).length ≤ 1024 ∧
       (after (.linkOutputArbitrate 5) s).m.out.length = 1) ∧
    (let s := member fun k => { k with txQ := [⟨2, ackPkt 1 0⟩], replay := List.replicate 1024 ⟨0, []⟩ }
     1024 ≤ (lk s).replay.length ∧ (lk (after (.linkOutputArbitrate 5) s)).txNow.isSome = true) := by decide +kernel
theorem test_reseq :
    (let s := member fun k => { k with inBuf := [⟨2, ackPkt 2 4⟩] }
     let g := s.m.net.bundles[(2 : BundleId)]
     s.m.dueAt 2 2 = none ∧ (g.members.any fun j => (s.m.links[j]).inBuf.any fun h => decide (h.vc = 2)) = true ∧
       (g.members.all fun j => decide ((s.m.links[j]).st ≠ .retrain) && !(s.m.links[j]).rxWaiting &&
         (s.m.links[j]).inBuf.all fun h => decide ((hdrOf h.pkt).bseq ≠ (g.rxSeq[(2 : VcId)] + 1).toNat)) = true ∧
       (2, g.rxSeq[(2 : VcId)] + 1) ∉ g.gone ∧
       ((after (.bundleReseqTimeout 2 2) s).m.net.bundles[(2 : BundleId)]).rxSeq[(2 : VcId)] = 1) := by decide +kernel

/-- A packet of module 1 in fold 7 that waits for its consumer, and a pool for what comes in. -/
def inbound (h : Hdr) (b : Bytes) : State :=
  ((folded.obj (ctxIdx 0 4) 4 (2 ^ 36)).obj 0x29C0 16 8).on fun m =>
    { (m.modPool 0 fun p => { p with memory := 1, sizeLog2 := 14, count := 8 }) with
      net := { m.net with localRx := [⟨mkPacket { h with fold := 7, src := 1 } b, none⟩] } }

/-- Its header. -/
def inHdr (s : State) : Hdr := (s.m.net.localRx.head?.map fun r => hdrOf r.pkt).getD {}

theorem test_put_receive :
    (let put := fun a dram => inbound { ty := tyPut, cls := clsReq, addr := a, length := 4, dram := dram } [1, 2, 3, 4]
     let may := fun (s : State) => s.m.works && !s.m.inboundWaits && decide (s.m.rxCtx (inHdr s) = some 0) &&
       s.m.reachable (rxPath (inHdr s)) && (s.m.pools[(0 : PoolId)]).waiting.isEmpty && s.m.bpmFits 0 (rqCtx 0) 1 &&
       (s.m.takeLocal fun h => decide (h.ty = tyPut) && decide (h.cls ≠ clsBulk)).isSome
     let s := put 4096 false
     may s = true ∧ s.m.rxInWindow 0 (inHdr s) = true ∧ (inHdr s).dram = false ∧ s.m.spadPartBad 4096 4 = none ∧
       (after .putReceive s).m.spadRead 4096 4 = [1, 2, 3, 4] ∧
       (let t := put 4096 true
        may t = true ∧ t.m.rxInWindow 0 (inHdr t) = true ∧ (inHdr t).dram = true ∧ t.m.mustHold 4096 4 = false ∧ t.m.dramPartBad 4096 4 = none ∧
          (after .putReceive t).m.dramRead 4096 4 = [1, 2, 3, 4]) ∧
       (let t := put (2 ^ 29 - 2) false
        may t = true ∧ t.m.rxInWindow 0 (inHdr t) = false ∧ (after .putReceive t).m.net.inject.length = 1)) := by decide +kernel
theorem test_get_receive :
    (let get := fun a dram => inbound { ty := tyGet, cls := clsReq, addr := a, length := 4, dram := dram } []
     let may := fun (s : State) => s.m.works && decide (s.m.rxCtx (inHdr s) = some 0) &&
       (s.m.takeLocal fun h => decide (h.ty = tyGet) && decide (h.cls ≠ clsBulk)).isSome
     let s := get 4096 false
     let t := get 4096 true
     may s = true ∧ s.m.rxInWindow 0 (inHdr s) = true ∧ s.m.reachable (rxPath (inHdr s)) = true ∧ s.m.spadBad 4096 4 = none ∧
       may t = true ∧ t.m.rxInWindow 0 (inHdr t) = true ∧ t.m.reachable (rxPath (inHdr t)) = true ∧ t.m.dramBad 4096 4 = none ∧
       (let u := get (2 ^ 29 - 2) false
        may u = true ∧ u.m.rxInWindow 0 (inHdr u) = false)) := by decide +kernel
theorem test_token_receive :
    (let s := inbound { ty := tyToken, cls := clsReq, token := 2 * 2 ^ 12 + 9 } []
     let t := s.ctx 0 fun x => { x with heddle := [(4105, 65535)] }
     let seen := (s.m.net.remember s.m.now).any fun e =>
       decide (e.1 = (inHdr s).src.toNat) && decide (e.2.1 = (inHdr s).ctx) && decide (e.2.2.1 = (inHdr s).tag)
     s.m.works = true ∧ s.m.reachable [132, 126] = true ∧
       ((s.m.wake [132, 126]).takeLocal (fun h => decide (h.ty = tyToken))).isSome = true ∧ s.m.rxCtx (inHdr s) = some 0 ∧ seen = false ∧
       (s.m.ctxs[(0 : CtxId)]).st = .enabled ∧ (s.m.ctxs[(0 : CtxId)]).overflows 2 9 = none ∧
       ((after .tokenReceive s).m.ctxs[(0 : CtxId)]).tokens 1 9 = 1 ∧ (t.m.ctxs[(0 : CtxId)]).overflows 2 9 = some 1 ∧
       ((s.ctx 0 fun x => { x with st := .halted }).m.rxCtx (inHdr s)) = some 0) := by decide +kernel

theorem test_token_again :
    (let s := (inbound { ty := tyToken, cls := clsReq, token := 2 * 2 ^ 12 + 9, tag := 4 } []).on fun m =>
       m.modNet fun n => { n with tokens := [(1, 0, 4, m.now)] }
     ((s.m.net.remember s.m.now).any fun e =>
       decide (e.1 = (inHdr s).src.toNat) && decide (e.2.1 = (inHdr s).ctx) && decide (e.2.2.1 = (inHdr s).tag)) = true ∧
       ((after .tokenReceive s).m.ctxs[(0 : CtxId)]).tokens 1 9 = 0) := by decide +kernel
theorem test_get_bad :
    (let s := (inbound { ty := tyGet, cls := clsReq, addr := 4096, length := 4 } []).on fun m =>
       { m with mem := { m.mem with badWords := [4096 / 8], badUnits := [4096 / 64] } }
     s.m.spadBad 4096 4 ≠ none ∧ s.m.dramBad 4096 4 ≠ none ∧ ((after .getReceive s).m.net.inject.map fun x => (hdrOf x.pkt).status) =
       [Status.uncorrectable.code]) := by decide +kernel

/-- A PUT or GET of the job's slot to module 1 in flight, and its answer. -/
def answered (ty : Nat) (ans : Hdr) (b : Bytes) : State :=
  (moving { jobOf (moveOf 5 4096 0 (2 ^ 620)) 1 with nextPiece := 1, outstanding := 1 }).on fun m => { m with
    mv := { m.mv with flights := [⟨9, .slot 0 0, mkPacket { ty := ty, cls := clsReq, dst := 1, length := 4 } [], 1, 0, 0, false, 4096, none, false⟩] },
    net := { m.net with localRx := [⟨mkPacket { ans with tag := 9, src := 1 } b, none⟩] } }

theorem test_ack_receive :
    (let s := answered tyPut { ty := tyAck, cls := clsRsp } []
     let f := s.m.flightOf (inHdr s)
     (s.m.takeLocal fun h => decide (h.ty = tyAck)).isSome = true ∧ f.map Flight.owner = some (.slot 0 0) ∧ (inHdr s).status = 0 ∧
       f.map (fun f => (hdrOf f.pkt).ty) = some tyPut ∧ (s.m.moveJob 0 0).isSome = true ∧
       (s.m.moveJob 0 0).map (fun j => (parseMove j.slot.bytes).remoteTargets) = some 0 ∧
       ((after .ackReceive s).m.moveJob 0 0).map MoveJob.outstanding = some 0) := by decide +kernel
theorem test_get_rsp_receive :
    (let s := answered tyGet { ty := tyGetRsp, cls := clsRsp, length := 4 } [1, 2, 3, 4]
     let f := s.m.flightOf (inHdr s)
     (s.m.takeLocal fun h => decide (h.ty = tyGetRsp)).isSome = true ∧
       f.map (fun f => ((hdrOf f.pkt).ty, (hdrOf f.pkt).length, f.answer, f.toAddr)) = some (tyGet, 4, none, 4096) ∧
       (s.m.moveJob 0 0).map (fun j => ((parseMove j.slot.bytes).uncut, (parseMove j.slot.bytes).acc)) = some (false, false) ∧
       s.m.spadPartBad 4096 4 = none ∧ (after .getRspReceive s).m.spadRead 4096 4 = [1, 2, 3, 4]) := by decide +kernel
theorem test_mgt_receive : up.m.mgmtUp = true ∧
    (after .mgtReceive (up.on fun m => m.modMgmt fun g => { g with mgtRx := [ackPkt 0 0] })).m.mgmt.mgtRx = [] := by decide +kernel

theorem test_link_event : (1 : Coord) ≠ up.m.net.own ∧
    (after (.linkEvent 1 (List.replicate 16 ⟨.up, 1, 0, 0, false⟩)) up).m.net.rebuilding = true := by decide +kernel
theorem test_route :
    (let s := up.on fun m => { m with net := { m.net with rebuilding := true } }
     s.m.net.built = none ∧ s.m.bankEmpty (!s.m.net.bank) = true ∧ s.m.coordinator = s.m.net.own ∧
       (after .routeBuilt s).m.net.built = some true ∧ (after (.routeSwitch ⟨false, [⟨1, true, false⟩]⟩) s).m.net.reports.length = 1 ∧
       (after .routeRebuildTimeout s).m.net.timedOut = true ∧
       (let t := after .routeBuilt s
        t.m.maySwitch false = true ∧ (after (.routeSwitch ⟨false, []⟩) t).m.net.bank = true)) ∧
    (let s := up.on fun m => { m with net := { m.net with rebuilding := true, built := some false } }
     s.m.net.toldDrained = false ∧ s.m.bankEmpty s.m.net.bank = true ∧ s.m.maySwitch true = false ∧
       (after (.routeSwitch ⟨true, []⟩) s).m.net.bank = false ∧
       (let t := after .routeBuilt s
        t.m.maySwitch true = true ∧ (after (.routeSwitch ⟨true, []⟩) t).m.net.bank = true)) := by decide +kernel

theorem test_plan_commit : reaches up .can 0x2500 5 one = true ∧ regionOk (coordOf (up.m.num 0x2500 2)) (coordOf (up.m.num 0x2500 3)) = true ∧
    (after (.planCommit .can one) up).m.net.rebuilding = true ∧
    (let s := up.obj 0x2500 2 1
     reaches s .can 0x2500 5 one = true ∧ regionOk (coordOf (s.m.num 0x2500 2)) (coordOf (s.m.num 0x2500 3)) = false ∧
       answerOf (after (.planCommit .can one) s) = some 0x06090030) := by decide +kernel
theorem test_rank_map : reaches up .can 0x2502 6 (natLe 4 3) = true ∧
    ((after (.rankMapCommit .can 1 (natLe 4 3)) up).m.net.folds[(1 : FoldSlot)]).generation = 3 := by decide +kernel
theorem test_rank_map_old :
    (let s := up.on fun m => m.modFold 1 fun f => { f with committed := true, generation := 4 }
     seqBefore (2 ^ 31 - 1) (s.m.net.folds[(1 : FoldSlot)]).generation 3 = false ∧ reaches s .can 0x2502 6 (natLe 4 3) = true ∧
       answerOf (after (.rankMapCommit .can 1 (natLe 4 3)) s) = some 0x06090030) := by decide +kernel
theorem test_fold_binding : reaches up .can 0x2510 2 [3] = true ∧ ((after (.foldBinding .can 1 [3]) up).m.foldOf 1).map Fin.val = some 3 ∧
    (allCtx.all fun d => decide (d = 1) || decide (up.m.num 0x2510 (d.val + 1) ≠ 3)) = true ∧
    (let s := up.obj 0x2510 3 3
     reaches s .can 0x2510 2 [3] = true ∧ answerOf (after (.foldBinding .can 1 [3]) s) = some 0x06090030) := by decide +kernel
theorem test_fold_accept :
    (let s := up.on fun m => m.modFold 1 fun f => { f with st := .deviated, deviation := 2 }
     reaches s .can 0x2502 0x0A (natLe 4 2) = true ∧ ((after (.foldAccept .can 1 (natLe 4 2)) s).m.net.folds[(1 : FoldSlot)]).st = .accepted ∧
       reaches s .can 0x2502 0x0A (natLe 4 1) = true ∧ answerOf (after (.foldAccept .can 1 (natLe 4 1)) s) = some 0x06090030) := by
  decide +kernel
theorem test_fold_wait :
    (let q := moveOf 4 4096 0 (2 ^ 620)
     let s := (foldSlot q).on fun m => m.modFold 0 fun f => { f with st := .forming }
     s.m.startable 0 .move = some q ∧ (parseMove q.bytes).fabric = true ∧ s.m.unplanned 0 = false ∧ s.m.foldFlows 0 = false ∧
       ((after (.foldWaitTimeout 0) s).m.ctxs[(0 : CtxId)]).cause = .fault) := by decide +kernel
theorem test_isolate :
    (let s := member id
     (s.m.net.bundles[(2 : BundleId)]).role ≠ 0 ∧ reaches s .can 0x2642 0x0A [1] = true ∧
       ((after (.isolate .can 2 [1]) s).m.net.bundles[(2 : BundleId)]).st = .down) := by decide +kernel

/-! ### The host port -/

/-- The module's own IPv6 address. -/
def addr6 : Bytes := 0xFE :: List.replicate 15 1

/-- A module with addresses on its port. -/
def addressed : State := (up.obj 0x2700 7 0x0A000001).on fun m => m.setObj 0x2700 6 (.bytes addr6)

theorem test_host_mode : reaches up .can 0x2700 1 [2] = true ∧ up.m.reachable [101] = true ∧
    (after (.hostModeRequest .can [2]) up).m.host = ⟨4, 2, 0, []⟩ ∧ reaches up .can 0x2700 1 [4] = true ∧
    answerOf (after (.hostModeRequest .can [4]) up) = some 0x06090030 := by decide +kernel
theorem test_host_link :
    (let s := up.on fun m => { m with host := ⟨4, 1, 0, []⟩ }
     s.m.hostTrying = true ∧ s.m.num 0x2700 3 ≠ 0 ∧ (after .hostLinkUp s).m.host = ⟨1, 1, 0, []⟩ ∧
       (after .hostLinkUpTimeout s).m.host = ⟨4, 2, 0, []⟩) ∧
    (let s := up.on fun m => { m with host := ⟨4, 2, 0, []⟩ }
     s.m.hostTrying = true ∧ (after .hostLinkUpTimeout s).m.host = ⟨4, 0, 0, []⟩) ∧
    up.m.hostUp = true ∧ (after .hostLinkDown (up.on fun m => { m with host := ⟨2, 0, 8, []⟩ })).m.host = ⟨4, 2, 0, []⟩ := by decide +kernel
theorem test_pfc :
    (let p := up.m.num 0x2700 0x0A
     p < 8 ∧ (after (.pfcFrame p true) up).m.hostPaused 0 = true ∧ (after (.pfcFrame p false) (after (.pfcFrame p true) up)).m.host.paused = 0) ∧
    up.m.num 0x2700 0x0A ≠ 0 ∧ up.m.num 0x2700 0x0B ≠ 0 ∧ (after (.pfcFrame 0 true) up).m.host.paused = 0 := by decide +kernel
theorem test_pfc_waiting :
    (let p := up.m.num 0x2700 0x0B
     let s := up.on fun m => { m with host := ⟨2, 0, BitVec.ofNat 8 (2 ^ p), [.mgmtResponse 0 [1]]⟩ }
     s.m.hostPaused 1 = true ∧ (after (.pfcFrame p false) s).m.host.waiting = [] ∧
       (after (.pfcFrame p false) s).m.out.head? = some (s.m.wire (.mgmtResponse 0 [1]))) := by decide +kernel
theorem test_own_address : addressed.m.hostUp = true ∧ addressed.m.num 0x2700 7 = (0x0A000001 : BitVec 32).toNat ∧
    addressed.m.ownV6 addr6 = true ∧ addressed.m.ownV6 (List.replicate 16 0) = false ∧
    leNat [10, 0, 0, 1] ≠ 0 ∧ ([10, 0, 0, 1] : Bytes).reverse = natLe 4 (addressed.m.num 0x2700 7) ∧
    ([10, 0, 0, 2] : Bytes).reverse ≠ natLe 4 (addressed.m.num 0x2700 7) ∧ 20 + 8 + 1 ≤ addressed.m.num 0x2700 9 ∧
    ¬ 20 + 8 + 29 ≤ (addressed.obj 0x2700 9 56).m.num 0x2700 9 ∧
    (after (.echoRequest false [10, 0, 0, 1] [5]) addressed).m.out.head? = some (addressed.m.wire (.echoReply false [5])) := by decide +kernel
theorem test_qp_number : qpOfNumber 0x0102 = some (0, 2) ∧ qpOfNumber 0x00FF = none ∧ qpOfNumber 0x0180 = none ∧
    (up.m.qpTakes 0 2 0 0 = true ∧ up.m.qpTakes 0 2 3 16 = true ∧ up.m.qpTakes 0 2 0 16 = true ∧ up.m.qpTakes 0 2 32 4 = true ∧
      up.m.qpTakes 0 2 0 4 = true) ∧
    (up.obj 0x2700 9 90).m.oversize 0 2 64 16 = 1 ∧ up.m.oversize 0 2 64 16 = 0 := by decide +kernel
theorem test_unsupported : up.m.qpTakes 0 2 0 0 = true ∧
    (((after (.unsupportedOperation 0 ⟨2, false⟩ .atomic) up).m.ctxs[(0 : CtxId)]).qps[(2 : QpNo)]).st = .error := by decide +kernel

/-- Memory window 3 of context 0 over 4 KiB, of scratchpad or of DRAM, with a key and every right. -/
def windowed (space : Nat) : State :=
  up.ctx 0 fun x => { x with mws := Vec.upd x.mws 3 fun _ => ⟨some (3 * 2 ^ 26 + 5), 5, space, 4096, 4096, 3⟩ }

theorem test_mw_write :
    (let s := windowed 1
     let k := s.m.mwOf 0 (3 * 2 ^ 26 + 5)
     isData 2 = true ∧ s.m.works = true ∧ k.map (fun k => (k.space, k.base, k.length)) = some (1, 4096, 4096) ∧
       k.map (fun k => bit k.access.toNat 1) = some true ∧ mwAllows k 0 8 3 = true ∧ s.m.mem.badWords = [] ∧ s.m.spadBad 4104 3 = none ∧
       (k.map fun k => s.m.reachable (mwPath k 8 3)) = some true ∧ s.m.readsHeld 0 2 < s.m.num (qpIdx 0 2) 0x0D ∧
       (after (.rdmaWrite 0 2 (3 * 2 ^ 26 + 5) 8 [1, 2, 3] false) s).m.spadRead 4104 3 = [1, 2, 3]) ∧
    (let s := windowed 2
     s.m.mem.badUnits = [] ∧ s.m.mustHold 4104 3 = false ∧ s.m.dramBad 4104 3 = none ∧
       (after (.rdmaWrite 0 2 (3 * 2 ^ 26 + 5) 8 [1, 2, 3] false) s).m.dramRead 4104 3 = [1, 2, 3]) := by decide +kernel
theorem test_mw_reject : (windowed 1).m.mwOf 0 (3 * 2 ^ 26 + 6) = none ∧ (windowed 1).m.mv.jobs = [] ∧
    (((after (.rdmaRead 0 2 (3 * 2 ^ 26 + 6) 8 3 false) (windowed 1)).m.ctxs[(0 : CtxId)]).qps[(2 : QpNo)]).st = .error := by decide +kernel

/-- Requests outstanding on data QP 0 of context 0. -/
def asked (l : List HostReq) (retries : Nat) (s : State) : State :=
  s.ctx 0 fun x => { x with qps := Vec.upd x.qps 2 fun p => { p with outstanding := l, retries := retries } }

theorem test_read_response :
    (let j := { jobOf (moveOf 6 4096 0 0) 1 with nextPiece := 1, outstanding := 1, reserved := 1 }
     let r : HostReq := .read 0 0 0 0 32
     let s := asked [r] 0 (moving j)
     let v := parseMove j.slot.bytes
     let b : Bytes := List.replicate 32 6
     takeFirst HostReq.isRead [r] = some (r, []) ∧ s.m.works = true ∧ s.m.reachable (j.path v (v.piece 0)) = true ∧ s.m.moveJob 0 0 = some j ∧ v.piece 0 = [⟨0, 0, 32⟩] ∧ v.ends.2.isDram = false ∧
       v.acc = false ∧ s.m.spadPartBad (j.dstRow v 0 + 0) 32 = none ∧
       (after (.rdmaReadResponse 0 2 b false) s).m.spadRead 4096 32 = b) := by decide +kernel
theorem test_rc_ack :
    (let s := asked [.record 4] 3 (up.ctx 0 fun x => { x with unacked := [⟨4, none, []⟩, ⟨5, none, []⟩] })
     takeFirst (fun r => !HostReq.isRead r) [.record 4] = some (.record 4, []) ∧
       ((after (.rcAck 0 ⟨2, false⟩) s).m.ctxs[(0 : CtxId)]).unacked = [⟨5, none, []⟩] ∧
       (((after (.rcAck 0 ⟨2, false⟩) s).m.ctxs[(0 : CtxId)]).qps[(2 : QpNo)]).retries = 0) := by decide +kernel
theorem test_rc_retry :
    (let s := asked [.write 0 64 9 [1]] 0 up
     (((s.obj (qpIdx 0 2) 0x0A 7).m.num (qpIdx 0 2) 0x0A) = 7) ∧ 0 < s.m.num (qpIdx 0 2) 9 ∧
       (after (.rcAckTimeout 0 2) s).m.out.head? = some (s.m.wire (.rdmaWrite 0 2 64 9 [1])) ∧
       (((after (.rcNak 0 ⟨2, false⟩ .rnr) s).m.ctxs[(0 : CtxId)]).qps[(2 : QpNo)]).rnrRetries = 1 ∧
       (let t := (s.obj (qpIdx 0 2) 0x0A 0)
        t.m.num (qpIdx 0 2) 0x0A = 0 ∧ (((after (.rcNak 0 ⟨2, false⟩ .rnr) t).m.ctxs[(0 : CtxId)]).qps[(2 : QpNo)]).st = .error)) ∧
    (let s := asked [.write 0 64 9 [1]] 99 up
     s.m.num (qpIdx 0 2) 9 ≤ 99 ∧ (((after (.rcAckTimeout 0 2) s).m.ctxs[(0 : CtxId)]).qps[(2 : QpNo)]).st = .error) ∧
    (((after (.rcNak 0 ⟨2, false⟩ .remoteAccess) up).m.ctxs[(0 : CtxId)]).qps[(2 : QpNo)]).st = .error := by decide +kernel
theorem test_cnp : up.m.cnpDue none = true ∧ (((after (.cnp 0 2) up).m.ctxs[(0 : CtxId)]).qps[(2 : QpNo)]).rate = 800000 ∧
    up.m.num 0x2700 0x0F ≠ 0 ∧ (((up.m.ctxs[(0 : CtxId)]).qps[(2 : QpNo)]).cnpTx = none) ∧
    (after (.rcAck 0 ⟨2, true⟩) up).m.out.head? = some (up.m.wire (.cnp 0 2)) ∧
    (let s := after (.cnp 0 2) up
     let t := s.on fun m => { m with now := m.now + m.num 0x2700 0x0F * 1000 }
     s.m.now < ((s.m.ctxs[(0 : CtxId)]).qps[(2 : QpNo)]).rateSince + s.m.num 0x2700 0x0F * 1000 ∧
       (((after (.rateRecover 0 2) s).m.ctxs[(0 : CtxId)]).qps[(2 : QpNo)]).rate = 800000 ∧
       (((after (.rateRecover 0 2) t).m.ctxs[(0 : CtxId)]).qps[(2 : QpNo)]).rate = 880000) := by decide +kernel

/-- A configured data QP of context 0 in RESET. -/
def configured : State :=
  ((((up.obj (qpIdx 0 2) 2 9).obj (qpIdx 0 2) 4 9).obj (qpIdx 0 2) 5 77).on fun m => m.setObj (qpIdx 0 2) 3 (.bytes addr6)).ctx 0 fun x =>
    { x with qps := Vec.upd x.qps 2 fun _ => Qp.init }

theorem test_qp_connect : configured.m.qpComplete 0 2 = true ∧ reaches configured .can (qpIdx 0 2) 0x0E one = true ∧
    (configured.m.ctxs[(0 : CtxId)]).st ≠ .disabled ∧ ((configured.m.ctxs[(0 : CtxId)]).qps[(2 : QpNo)]).st = .reset ∧
    (((after (.qpConnect .can 0 2 one) configured).m.ctxs[(0 : CtxId)]).qps[(2 : QpNo)]).sendPsn = 77 ∧
    reaches up .can (qpIdx 0 2) 0x0E one = true ∧ answerOf (after (.qpConnect .can 0 2 one) up) = some 0x08000022 ∧
    reaches up .can (qpIdx 0 2) 0x0F one = true ∧
    (((after (.qpReset .can 0 2 one) up).m.ctxs[(0 : CtxId)]).qps[(2 : QpNo)]).st = .reset := by decide +kernel
theorem test_mw_create :
    (let s := ((up.obj (mwIdx 0 3) 1 1).obj (mwIdx 0 3) 2 4096).obj (mwIdx 0 3) 3 4096
     reaches s .can (mwIdx 0 3) 5 one = true ∧ s.m.mwFits 0 (s.m.num (mwIdx 0 3) 1) (s.m.num (mwIdx 0 3) 2) (s.m.num (mwIdx 0 3) 3) = true) ∧
    (let s := ((up.obj (mwIdx 0 3) 1 1).obj (mwIdx 0 3) 2 4096).obj (mwIdx 0 3) 3 (2 ^ 60)
     reaches s .can (mwIdx 0 3) 5 one = true ∧ s.m.mwFits 0 (s.m.num (mwIdx 0 3) 1) (s.m.num (mwIdx 0 3) 2) (s.m.num (mwIdx 0 3) 3) = false ∧
       answerOf (after (.mwCreate .can 0 3 one) s) = some 0x06090030) ∧
    reaches (windowed 1) .can (mwIdx 0 3) 7 one = true ∧
    (((after (.mwDestroy .can 0 3 one) (windowed 1)).m.ctxs[(0 : CtxId)]).mws[(3 : MwNo)]).key = none := by decide +kernel

/-! ### Buffer pools and DRAM upkeep -/

/-- Pool 5 of 8 buffers with a waiting request. -/
def pooled (f : Pool → Pool) (s : State) : State :=
  (((s.obj 0x29C5 20 8).obj 0x29C5 21 8).obj 0x29C5 16 8).on fun m =>
    m.modPool 5 fun p => f { p with memory := 1, sizeLog2 := 14, count := 8, base := 2 ^ 20, lowWater := 8 }

/-- The pool of the BPM reset. -/
def pl (s : State) : Pool := s.m.pools[(5 : PoolId)]

theorem test_grant :
    (let k := collOf grp 0 .reservation fun y => y
     let q : BpmReq := ⟨rqShuttle, 3, .admission k.key⟩
     let s := pooled (fun p => { p with waiting := [q] }) (opened k [])
     (pl s).waiting = [q] ∧ s.m.bpmFits 5 q.who q.n = true ∧ ((after (.bpmGrant 5) s).m.coll k.key).map Coll.reserved = some 3 ∧
       (let t := pooled (fun p => { p with waiting := [{ q with n := 9 }] }) (opened k [])
        t.m.bpmFits 5 q.who 9 = false ∧ (pl (after (.bpmGrant 5) t)).waiting = [{ q with n := 9 }]) ∧
       s.m.coll k.key = some k ∧ (s.m.ctxs[(0 : CtxId)]).st = .enabled ∧
       ((after (.bpmQuotaWaitTimeout 5) s).m.ctxs[(0 : CtxId)]).cause = .fault) := by decide +kernel
theorem test_wait_timeout :
    (let s := pooled (fun p => { p with waiting := [⟨rqMove, 9, .get 0 0⟩] }) (moving (jobOf (moveOf 2 4096 0 0) 1))
     (s.m.moveJob 0 0).isSome = true ∧ (after (.bpmQuotaWaitTimeout 5) s).m.mv.jobs = []) ∧
    (let s := pooled (fun p => { p with waiting := [⟨rqCtx 0, 1, .inbound 0⟩] }) up
     (pl (after (.bpmQuotaWaitTimeout 5) s)).waiting = []) ∧
    (let s := pooled (fun p => { p with waiting := [⟨rqDrover, 9, .drover 0⟩] }) up
     (s.m.ctxs[(0 : CtxId)]).st = .enabled ∧ ((after (.bpmQuotaWaitTimeout 5) s).m.ctxs[(0 : CtxId)]).cause = .fault) := by
  decide +kernel
theorem test_buffer_use :
    (let s := pooled (fun p => { p with fresh := 8, alloc := [(2, ⟨rqCtx 0, 2⟩), (3, ⟨rqCtx 0, 65535⟩)] }) up
     let h : BufferRef := .handle (BitVec.ofNat 32 (handleOf 5 2))
     s.m.bpmLocate h = .ok (5, 2) ∧ s.m.bpmLocate (.address 5 (2 ^ 20 + 2 * 2 ^ 14)) = .ok (5, 2) ∧ Sparse.find 2 (pl s).alloc = some ⟨rqCtx 0, 2⟩ ∧
       (pl (after (.bpmIncrement (rqCtx 0) h 3) s)).alloc.head? = some (2, ⟨rqCtx 0, 5⟩) ∧
       (pl (after (.bpmDecrement (rqCtx 0) h) s)).alloc.head? = some (2, ⟨rqCtx 0, 1⟩) ∧
       (pl (after (.bpmDecrement (rqCtx 0) h) (after (.bpmDecrement (rqCtx 0) h) s))).freed = [2] ∧
       (pl (after (.bpmIncrement (rqCtx 1) h 3) s)).quarantined = [2] ∧
       (pl (after (.bpmIncrement (rqCtx 0) (.handle (BitVec.ofNat 32 (handleOf 5 3))) 1) s)).quarantined = [3]) := by decide +kernel

theorem test_misuse :
    (let s := pooled (fun p => { p with fresh := 8, alloc := [(2, ⟨rqCtx 0, 2⟩)] }) up
     let h : BufferRef := .handle (BitVec.ofNat 32 (handleOf 5 2))
     (pl s).quarantined.contains 2 = false ∧ s.m.currentOp (rqCtx 1) = none ∧ (s.m.ctxs[(1 : CtxId)]).st = .enabled ∧
       s.m.currentOp rqDrover = none ∧ ((after (.bpmIncrement (rqCtx 1) h 3) s).m.ctxs[(1 : CtxId)]).cause = .fault ∧
       (after (.bpmIncrement rqDrover h 3) s).m.mgmt.history.head? = some (BitVec.ofNat 32 (handleOf 5 2 % 65536 * 65536 + 0xFF02)) ∧
       (let j := jobOf (moveOf 2 4096 0 0) 1
        let t := s.on fun m => { m with mv := { m.mv with jobs := [j] } }
        t.m.currentOp rqMove = some (.move j) ∧ (after (.bpmDecrement rqMove h) t).m.mv.jobs = [] ∧
          (after (.bpmIncrement rqMove h 1) t).m.mv.jobs = [])) := by decide +kernel
theorem test_grant_waits :
    (let j := jobOf (moveOf 6 4096 0 0) 1
     let q : BpmReq := ⟨rqMove, 1, .host 0 0⟩
     let s := (pooled (fun p => { p with waiting := [q] }) (moving j)).isl 129 fun x => { x with st := .powerGated }
     s.m.bpmFits 5 q.who q.n = true ∧ s.m.mayGrant q = false ∧ (pl (after (.bpmGrant 5) s)).waiting = [q]) := by decide +kernel
theorem test_scrub_weak :
    (let s := up.on fun m => { m with mem := { m.mem with weakUnits := [(29, 3), (40, 1)] } }
     ((s.m.mem.weakUnits.filter fun u => decide ((0 * 24 + 7) * 4 ≤ u.1 ∧ u.1 < (0 * 24 + 7) * 4 + 4)).length = 1) ∧
       (after (.patrolScrub 7 .clean) s).m.mem.weakUnits = [(40, 1)] ∧
       ((after (.patrolScrub 7 .clean) s).m.mem.chans[(7 : DramChan)]).ceCount = 1) := by decide +kernel
theorem test_scrub : up.m.mem.dramState = 2 ∧ up.m.linesPerChan ≠ 0 ∧ up.m.reachable [island (102 + 7)] = true ∧
    ((after (.patrolScrub 7 .clean) up).m.mem.patrol[(7 : DramChan)]) = 1 ∧
    (((after (.patrolScrub 7 (.corrected 4)) up).m.mem.chans[(7 : DramChan)]).ceCount) = 1 ∧
    (after (.patrolScrub 7 .uncorrectable) up).m.mem.badUnits.length = 4 := by decide +kernel
theorem test_training :
    (let s := up.on fun m => { m with mem := { m.mem with dramState := 1 } }
     (after (.dramTrained (List.replicate 24 ⟨64, 8800, .trained⟩)) s).m.mem.dramState = 2 ∧
       (after (.dramTrained (⟨64, 8800, .failed⟩ :: List.replicate 23 ⟨64, 8800, .trained⟩)) s).m.mem.dramState = 0) := by decide +kernel

/-! ### Management -/

theorem test_can_events : up.m.mgmtUp = true ∧ up.m.canNode = true ∧ (after .watchdogRestart up).m.pwr.lastCause = 6 ∧
    (after (.canRxOverrun 3) up).m.mgmt.history.head? = some (3 * 65536 + 0x8110) ∧
    (after .canBusOffRecovered up).m.mgmt.busOffCount = 1 ∧ (after (.canErrorPassive true) up).m.mgmt.canPassive = true ∧
    (after .nmtStop up).m.mgmt.nmt = .stopped ∧ (after .nmtStart (after .nmtStop up)).m.mgmt.nmt = .operational ∧
    (after .nmtResetNode up).m.pwr.lastCause = 7 ∧ (after .nmtResetCommunication (up.obj 0x1017 0 9)).m.num 0x1017 0 ≠ 9 := by decide +kernel
theorem test_heartbeat : (up.obj 0x1017 0 9).m.num 0x1017 0 ≠ 0 ∧ (after .heartbeat (up.obj 0x1017 0 9)).m.out.length = 1 ∧
    (up.obj 0x1017 0 0).m.num 0x1017 0 = 0 := by decide +kernel
theorem test_time : (let s := up.obj 0x1012 0 (2 ^ 31 + 0x100)
    s.m.canServes = true ∧ bit (s.m.num 0x1012 0) 31 = true ∧ s.m.log.queue.length < 4096 ∧ (after (.time 7) s).m.log.queue.length = 1) := by
  decide +kernel
theorem test_nmt_reload : up.m.mgmt.newest = none ∧ storedKey (objKey 0x1017 0) = true ∧
    Sparse.find (objKey 0x1017 0) (after .nmtResetCommunication (up.obj 0x1017 0 9)).m.dict = none ∧
    (let s := up.on fun m => m.modMgmt fun g => { g with nodeId := 5 }
     (after .nmtResetCommunication s).m.out = [.bootUp]) := by decide +kernel
theorem test_emcy :
    (let e : Emcy := ⟨0x8110, 3, 0, 0xFF, none, 0⟩
     let s := up.on fun m => m.modMgmt fun g => { g with emcyQ := [e] }
     s.m.canServes = true ∧ s.m.mgmt.errOwed = false ∧ (after .emcySend s).m.mgmt.emcyQ = []) := by decide +kernel
theorem test_tpdo :
    (let s := ((up.obj 0x1802 1 0x181).obj 0x1802 5 9).on fun m =>
       m.modMgmt fun g => { g with tpdoLast := Vec.upd g.tpdoLast 2 fun _ => [1] }
     s.m.tpdoOn 2 = true ∧ s.m.num 0x1802 5 ≠ 0 ∧ s.m.tpdoData s.fuses 2 ≠ s.m.mgmt.tpdoLast[(2 : Fin 4)] ∧
       (after (.tpdoEventTimer 2) s).m.out.length = 1 ∧ (s.obj 0x1802 5 0).m.num 0x1802 5 = 0 ∧
       (let t := after (.tpdoValueChange 2) s
        t.m.tpdoOn 2 = true ∧ t.m.tpdoData t.fuses 2 = t.m.mgmt.tpdoLast[(2 : Fin 4)])) := by decide +kernel

theorem test_checks : up.m.chanUp .can = true ∧ idxExists 0x9999 = false ∧ idxExists 0x2600 = true ∧ objRow? 0x2600 0xEE = none ∧
    (objRow? 0x2600 1).isSome = true ∧ answerOf (after (.registerWrite .can 0x9999 0 []) up) = some 0x06020000 ∧
    answerOf (after (.registerWrite .can 0x2600 0xEE []) up) = some 0x06090011 ∧
    answerOf (after (.registerWrite (.qp 0) 0x2403 1 [3]) up) = some 0x06010000 ∧
    answerOf (after (.registerWrite .can 0x2600 1 []) up) = some 0x06010002 ∧
    answerOf (after (.registerWrite .can 0x2403 1 [3, 0]) up) = some 0x06070010 ∧
    answerOf (after (.registerWrite .can 0x2403 1 [4]) up) = some 0x06090030 ∧
    answerOf (after (.registerWrite .can 0x2403 1 [3]) up) = some 0 ∧ up.m.chanUp (.qp 0) = true ∧
    State.reset.m.chanUp .can = false := by decide +kernel
theorem test_usdo :
    (let s := up.on fun m => m.modUsdo (.writing 0x2403 1 [])
     up.m.usdoBusy = false ∧ (up.m.readWhole up.fuses .can 0x2403 1).toOption.isSome = true ∧
       (up.m.readWhole up.fuses .can 0x9999 1).toOption.isSome = false ∧
       isImage 0x2403 1 = false ∧ up.m.owes Out.onCan = false ∧ up.m.mgmt.usdo = .idle ∧ s.m.mgmt.usdo = .writing 0x2403 1 [] ∧
       answerOf (after (.usdoWrite 0x2403 1 [3] true) s) = some 0 ∧
       answerOf (after (.usdoWrite 0x2403 2 [3] true) s) = some 0x08000022 ∧ s.m.mgmtUp = true ∧
       answerOf (after .usdoSegmentTimeout s) = some 0x05040000 ∧
       (up.m.mgmt.chans[(4 : Fin 5)]).copy = (after (.domainCopyExpiry .can) up).m.mgmt.chans[(4 : Fin 5)].copy) := by decide +kernel

/-- A request on a management QP: READ 1 or WRITE 2. -/
def request (op idx sub : Nat) (b : Bytes) : Bytes := natLe 16 (op + 0x55 * 2 ^ 8 + idx * 2 ^ 24 + sub * 2 ^ 40 + b.length * 2 ^ 48) ++ b

/-- What is in the module when the request is handled. -/
def reqMach (s : State) (msg : Bytes) : Mach := (((s.m.wake [101]).ceMark 0 qMgmt false).psnRx 0 qMgmt msg.length).send (.rcAck 0 qMgmt)

theorem test_mgmt_read :
    (let msg := request 1 0x2800 3 []
     let h := mgmtHdr msg
     up.m.mgmtUp = true ∧ up.m.qpTakes 0 qMgmt msg.length 0 = true ∧ up.m.owes (Out.onQp 0) = false ∧ up.m.mgmtOpen 0 < 8 ∧ h.ok msg = true ∧ h.op = 1 ∧ h.offset = 0 ∧
       ((reqMach up msg).readWhole up.fuses (.qp 0) h.index h.sub).toOption.isSome = true ∧
       ((reqMach up msg).readWhole up.fuses (.qp 0) 0x9999 h.sub).toOption.isSome = false) := by
  decide +kernel
theorem test_mgmt_malformed : (mgmtHdr (request 3 0 0 [])).ok (request 3 0 0 []) = false ∧ (mgmtHdr (request 3 0 0 [])).op ≠ 2 ∧
    (mgmtHdr (request 2 0x2806 1 [9] ++ [1])).ok (request 2 0x2806 1 [9] ++ [1]) = false ∧
    (mgmtHdr (request 2 0x2806 1 [9] ++ [1])).op = 2 ∧
    (after (.mgmtRead 0 (request 3 0 0 []) false) up).m.out.head? =
      some (up.m.wire (.mgmtResponse 0 (mgmtRsp (mgmtHdr (request 3 0 0 [])) abIncompatible []))) ∧
    (let s := up.on fun m => { m with host := { m.host with paused := BitVec.ofNat 8 (2 ^ m.num 0x2700 0x0B) } }
     s.m.hostPaused 1 = true ∧ (after (.mgmtRead 0 (request 3 0 0 []) false) s).m.host.waiting.length = 2) := by decide +kernel
theorem test_mgmt_full :
    8 ≤ (up.ctx 0 fun x => { x with qps := Vec.upd x.qps qMgmt fun p => { p with outstanding := List.replicate 8 (.mgmt []) } }).m.mgmtOpen 0 := by
  decide +kernel
theorem test_mgmt_write :
    (let msg := request 2 0x2806 1 [9, 0, 0, 0]
     let h := mgmtHdr msg
     let bad := request 2 0x2806 1 [1]
     h.ok msg = true ∧ h.op = 2 ∧ h.offset = 0 ∧ h.index ≠ 0x2F02 ∧ isImage h.index h.sub = false ∧
       ((reqMach up msg).checkWrite (.qp 0) h.index h.sub (msg.drop 16)).toOption.isSome = true ∧
       (after (.mgmtWrite 0 msg false) up).m.num (ctxIdx 0 6) 1 = 9 ∧
       (match (reqMach up msg).checkWrite (.qp 0) h.index h.sub (msg.drop 16) with
        | .ok r => (match boolGate r (writerOf h.index h.sub) (reqMach up msg) (.qp 0) (r.ty.value (msg.drop 16)) with
          | .ok m' => decide (m'.host.mode < 3) && !m'.hostPaused 1
          | _ => false)
        | .error _ => false) = true ∧
       (mgmtHdr bad).ok bad = true ∧ ((reqMach up bad).checkWrite (.qp 0) h.index h.sub (bad.drop 16)).toOption.isSome = false) := by
  decide +kernel

theorem test_store : up.m.mgmt.store = none ∧ reaches up .can 0x1010 1 (natLe 4 0x65766173) = true ∧
    (let s := after (.storeParameters .can (natLe 4 0x65766173)) up
     s.m.mgmt.store.isSome = true ∧ s.m.mgmtUp = true ∧ s.m.host.mode < 3 ∧ answerOf (after (.storeParameters .can (natLe 4 0x65766173)) s) = some 0x08000022 ∧
       ((after .storeComplete s).m.mgmt.copies.toList.map StoreCopy.valid).contains true = true) ∧
    answerOf (after (.storeParameters .can (natLe 4 1)) up) = some 0x08000020 ∧
    reaches up .can 0x1011 1 (natLe 4 0x64616F6C) = true ∧ answerOf (after (.restoreDefaultParameters .can (natLe 4 0x64616F6C)) up) = some 0 ∧
    answerOf (after (.restoreDefaultParameters .can (natLe 4 1)) up) = some 0x08000020 := by decide +kernel
theorem test_quote :
    (let s := up.on fun m => m.modMgmt fun g => { g with chans := Vec.upd g.chans (chanNum .can) fun x => { x with nonce := some [1] } }
     s.m.chanUp .can = true ∧ (s.m.checkRead .can 0x2F03 4).toOption.isSome = true ∧ (s.m.mgmt.chans[chanNum .can]).nonce = some [1]) := by
  decide +kernel

/-! ### Counters, sensors, the log, fences, Goose -/

/-- Counter 200 of context 1 with a value. -/
def counting : State :=
  up.on fun m => { m with counters := Vec.upd m.counters 200 fun _ => ⟨0x5004, 2 ^ 22 + 1 * 2 ^ 20, 1, 2 ^ 48 - 2, false, 7⟩ }

/-- Its counter. -/
def kc (s : State) : Counter := s.m.counters[(200 : CounterId)]

theorem test_counter_commands : counting.m.log.queue.length < 4096 ∧ reaches counting .can 0x2D00 1 [3] = true ∧
    (kc (after (.counterFreeze .can) counting)).sample = 2 ^ 48 - 2 ∧ (kc (after (.counterClear .can) counting)).value = 0 ∧
    (kc (after (.counterClear .can) counting)).sample = 7 ∧ (after (.counterStop .can) counting).m.netState = .stopped ∧
    (after (.counterRun .can) (after (.counterStop .can) counting)).m.netState = .run := by decide +kernel
theorem test_counter_configure : reaches counting .can 0x2D21 73 (natLe 2 5) = true ∧ reaches counting .can 0x2D31 73 (natLe 4 0) = true ∧
    reaches counting .can 0x2D41 73 [3] = true ∧ filterBad (2 ^ 22 + 2 ^ 20) = false ∧
    answerOf (after (.counterConfigure .can 200 .filter (natLe 4 0)) counting) = some 0x06090030 ∧
    answerOf (after (.counterConfigure .can 200 .filter (natLe 4 (2 ^ 22 + 2 ^ 20))) counting) = some 0 ∧
    answerOf (after (.counterConfigure .can 200 .owner [4]) counting) = some 0x06090030 ∧
    (kc (after (.counterConfigure .can 200 .owner [3]) counting)).filter = 2 ^ 22 + 3 * 2 ^ 20 ∧
    (kc (after (.counterConfigure .can 200 .owner [0xFF]) counting)).owner = 0xFF ∧
    (kc (after (.counterConfigure .can 200 .source (natLe 2 5)) counting)).source = 5 := by decide +kernel
theorem test_counter_top :
    (let o : Occ := { src := 0x5004, isl := 93, ctx := some 1 }
     (kc counting).counts o = true ∧ (kc { counting with m := counting.m.count o 1 }).value = 2 ^ 48 - 1 ∧
       (kc { counting with m := counting.m.count o 2 }).overflow = true) := by decide +kernel

theorem test_sensor : criticalOf 0 ≠ none ∧
    (let s := after (.sensorPoll 0 (.value 50000)) up
     ((s.m.sensors[(0 : SensorId)]).status = .ok ∧ (s.m.sensors[(0 : SensorId)]).throttled = false ∧
       ((after (.sensorStale 0) s).m.sensors[(0 : SensorId)]) = ⟨50000, .stale, some 50000, false⟩ ∧
       ((after (.sensorPoll 0 .failed) s).m.sensors[(0 : SensorId)]).status = .failed)) ∧
    (up.m.sensors[(0 : SensorId)]).status ≠ .ok ∧ reaches up .can 0x2303 0xA1 one = true := by decide +kernel

/-- A record of an event. -/
def recOf (event seq : Nat) : LogRec := ⟨BitVec.ofNat 16 event, 0, 0, 0, none, 0, 0, 1, BitVec.ofNat 32 seq, 0, []⟩

theorem test_log_write :
    (let s := up.on fun m => { m with log := { m.log with queue := [recOf 0xFE08 4], discarded := 3 } }
     let t := after .logRecordWrite s
     s.m.log.queue = recOf 0xFE08 4 :: [] ∧ t.m.log.ring = [recOf 0xFE08 4] ∧ t.m.log.queue.map LogRec.event = [0xFE07] ∧ t.m.log.discarded = 0) := by
  decide +kernel
theorem test_mirror : up.m.grade ≠ .n ∧ up.m.works = true ∧ up.m.reachable [130] = true ∧
    up.m.log.mirror.length + up.m.log.unmirrored.length ≤ 2 ^ 24 := by decide +kernel

theorem test_module_scope : up.m.mgmtUp = true ∧ (up.m.ctxs[(0 : CtxId)]).st = .enabled ∧
    (let s := folded.obj 0x2501 0x11 1
     s.m.num 0x2501 0x11 = 1 ∧ s.m.foldOf 0 = some 0 ∧ s.m.num 0x2501 1 ≠ 0 ∧
       ((after (.moduleScopeError ⟨128, .shared⟩) s).m.net.folds[(0 : FoldSlot)]).fenced = true) ∧
    (allCtx.all fun k => decide (up.m.num (0x2501 + k.val) 0x11 ≠ 1 ∨ up.m.num (0x2501 + k.val) 1 = 0)) = true ∧
    ((after (.moduleScopeError ⟨128, .shared⟩) up).m.ctxs[(3 : CtxId)]).cause = .fault ∧
    ((after (.moduleScopeError ⟨127, .owned 2⟩) up).m.ctxs[(2 : CtxId)]).cause = .fault ∧
    ((after (.moduleScopeError ⟨127, .owned 2⟩) up).m.ctxs[(3 : CtxId)]).st = .enabled ∧
    ((after (.moduleScopeError ⟨133, .shared⟩) up).m.ctxs[(3 : CtxId)]).st = .enabled ∧
    (after (.moduleScopeError ⟨133, .shared⟩) up).m.mgmt.history.head? = some (133 * 65536 + 0xFF10) ∧
    (after (.moduleScopeError ⟨127, .corrected⟩) up).m.mgmt.history = up.m.mgmt.history ∧
    ((up.ctx 2 fun x => { x with st := .disabled }).m.ctxs[(2 : CtxId)]).st ≠ .enabled := by decide +kernel
theorem test_fence : folded.m.num 0x2501 1 ≠ 0 ∧ reaches folded .can 0x2501 0x10 one = true ∧
    ((after (.foldFence .can 0 one) folded).m.net.folds[(0 : FoldSlot)]).fenced = true ∧ up.m.num 0x2501 1 = 0 ∧
    reaches up .can 0x2501 0x10 one = true ∧
    folded.m.num 0x2501 1 = (7 : BitVec 16).toNat ∧ (folded.m.net.folds[(0 : FoldSlot)]).fenced = false ∧ (1 : Coord) ≠ folded.m.net.own ∧
    ((allCtx.filter fun k => decide (k.val ≠ 0)).all fun k => decide (folded.m.num (0x2501 + k.val) 1 ≠ 7)) = true ∧
    folded.m.net.fencesSeen.contains (1, 4) = false ∧
    ((after (.fenceMessage ⟨7, 1, 4⟩) folded).m.net.folds[(0 : FoldSlot)]).fenced = true ∧
    (after (.fenceMessage ⟨7, 1, 4⟩) folded).m.net.fencesSeen.contains (1, 4) = true ∧ folded.m.mgmtUp = true ∧
    (allCtx.all fun k => decide (up.m.num (0x2501 + k.val) 1 ≠ 7)) = true := by decide +kernel

/-- Die 0 at 31 °C, in a band. -/
def banded (b : Option (Int × Option Int)) : State :=
  up.on fun m => { m with sensors := m.sensors.map fun x => { x with value := 31000, status := .ok }, goose := { m.goose with bands := Vec.upd m.goose.bands 0 fun _ => b } }

theorem test_band : ((banded none).m.dieTemp 0).isSome = true ∧ (banded none).m.num 0x3000 1 ≠ 0 ∧
    (let b := (((banded none).m.dieTemp 0).getD 0) / 5000
     ((banded none).m.goose.bands[(0 : DieId)]) = none ∧ ((after (.gooseBandTrigger 0) (banded none)).m.goose.bands[(0 : DieId)]) = some (b, none) ∧
       ((banded (some (b + 1, none))).m.goose.bands[(0 : DieId)]) = some (b + 1, none) ∧
       (((after (.gooseBandTrigger 0) (banded (some (b + 1, none)))).m.islands[(0 : IslandId)]).tileDue = true) ∧
       (((after (.gooseBandTrigger 0) (banded (some (b + 1, some b)))).m.islands[(0 : IslandId)]).tileDue = false) ∧
       ((after (.gooseBandTrigger 0) (banded (some (b, none)))).m.goose.bands[(0 : DieId)]) = some (b, none)) := by decide +kernel
theorem test_load : gooseIslands[up.m.goose.tilesRun % 40]? = some 0 ∧
    (((after .gooseLoadTrigger up).m.islands[(0 : IslandId)]).tileDue = true) := by decide +kernel

/-- Island 3 has a tile due, has failed before or not, and runs at a step. -/
def tiled (failed : Bool) (step : BitVec 2) : State :=
  up.isl 3 fun x => { x with tileDue := true, failedSinceClear := failed, reqOp := step, effective := step }

theorem test_tile : gooseTests 3 = true ∧
    (let x := (tiled true 1).m.islands[(3 : IslandId)]
     x.tileDue = true ∧ x.effective = x.wanted ∧ (tiled true 1).m.midWork 3 = false ∧ (tiled true 1).m.reachable [3] = true ∧
       (tiled true 1).m.works = true) ∧
    (let x := (tiled true 3).m.islands[(3 : IslandId)]
     x.effective = 3 ∧ x.effective = x.wanted ∧ (tiled true 3).m.midWork 3 = false ∧ (tiled true 3).m.reachable [3] = true) ∧
    ((tiled false 1).m.islands[(3 : IslandId)]).failedSinceClear = false ∧ ((tiled true 1).m.islands[(3 : IslandId)]).failedSinceClear = true := by
  decide +kernel

/-- The two answers of a tile that the statement tells apart. -/
theorem test_tile_answers : Config.gooseAnswer 3 0 = Config.gooseAnswer 3 (tiled true 1).m.goose.tilesRun ∧
    Config.gooseAnswer 3 0 + 1 ≠ Config.gooseAnswer 3 (tiled true 1).m.goose.tilesRun := by
  have h : (tiled true 1).m.goose.tilesRun = 0 := by decide +kernel
  rw [h]
  exact ⟨rfl, Nat.succ_ne_self _⟩
theorem test_health : reaches up .can 0x3000 8 one = true ∧ (after (.healthClear .can one) up).m.goose.rotating = true ∧
    up.m.tilesOwed gooseIslands = false ∧ (tiled false 0).m.tilesOwed gooseIslands = true ∧ reaches up .can 0x3000 7 one = true ∧
    (after (.suspectMark .can one) up).m.goose.cause = 16 ∧ reaches up .can 0x2C02 1 one = true := by decide +kernel

/-! ### Firmware, fuses, boot -/

/-- A module whose bank 0 runs, with banks of some images and states and a session. -/
def fwState (a b : BankSt) (image : Bytes) (st : FwSession) : State :=
  up.on fun m => { m with fw := { m.fw with
    banks := Vector.mk #[⟨image, a, [], 0⟩, ⟨image, b, [], 0⟩] rfl, session := st, owner := .can } }

theorem test_fw_commands : reaches up .can 0x2F01 1 [1] = true ∧ reaches up .can 0x2F01 1 [4] = true ∧
    (after (.fwBegin .can) (fwState .confirmed .valid [] .idle)).m.fw.session = .erasing ∧
    answerOf (after (.fwBegin .can) (fwState .trial .valid [] .idle)) = some 0x08000022 ∧
    answerOf (after (.fwBegin (.qp 0)) (fwState .confirmed .valid [] .valid)) ≠ some 0 ∧
    (after (.fwVerify .can) (fwState .confirmed .empty [] .receiving)).m.fw.session = .verifying ∧
    (after (.fwStage .can) (fwState .confirmed .valid [] .valid)).m.fw.session = .staged ∧
    (after (.fwCancel .can) (fwState .confirmed .staged [] .staged)).m.fw.session = .valid ∧
    ((after (.fwCancel .can) (fwState .confirmed .empty [] .receiving)).m.fw.banks[(1 : Fin 2)]).st = .invalid ∧
    (after .fwEraseComplete (fwState .confirmed .empty [] .erasing)).m.fw.session = .receiving := by decide +kernel
theorem test_fw_image :
    (let s := fwState .confirmed .empty [] .receiving
     s.m.fw.received = 0 ∧ reaches s .can 0x2F01 3 [1, 2] = true ∧ ((after (.fwImage .can 0 [1, 2]) s).m.fw.banks[(1 : Fin 2)]).image = [1, 2] ∧
       answerOf (after (.fwImage .can 1 [1, 2]) s) = some 0x06090030) := by decide +kernel
theorem test_fw_bad_header :
    (let s := fwState .confirmed .empty [] .verifying
     ((s.m.fw.banks[s.m.fw.inactive]).verify s.fuses).toBool = false ∧ (after .fwVerifyComplete s).m.fw.session = .idle ∧
       (after .fwVerifyComplete s).m.fw.status = 1) := by decide +kernel

/-- A manifest header without a payload, version 3. -/
def goodHeader : Bytes := natLe 128 (0x4B534C56 + 1 * 2 ^ 32 + 0xA1 * 2 ^ 40 + 3 * 2 ^ 96)

/-- A bank with that header. -/
def goodBank : Bank := ⟨goodHeader ++ List.replicate 32 0, .confirmed, [], 0⟩

/-- What this module's fuses and the signature scheme must say for the image to be good. -/
def signed : Prop := sha3 (goodBank.bytes 128 1312) = vendorHash ∧
  Config.mldsaVerify (goodBank.bytes 128 1312) goodBank.imageDigest (goodBank.bytes 1440 2420) (ascii "VLS-FW") = true

/-- Where the key's hash and the signature are right, such a bank verifies: neither is evaluated, as their constants have no body. -/
theorem test_fw_good (h : signed) : goodBank.verify Fuses.reset = .ok goodBank.imageDigest := by
  have a : headerBad goodBank.header = false := by decide +kernel
  have b : ¬ hdrVersion goodBank.header < Fuses.reset.rollbackCount := by decide +kernel
  unfold Bank.verify
  have c : Fuses.reset.ownerEnrolled = false := rfl
  simp [a, h.1, h.2, b, c]

theorem test_secure_boot : up.m.fuseVoltageBad = false ∧ reaches up .can 0x2F02 4 (natLe 4 fuseCode) = true ∧
    (after (.secureBootFuseCommit .can (natLe 4 fuseCode)) up).fuses.secureBoot = true ∧
    answerOf (after (.secureBootFuseCommit .can (natLe 4 1)) up) = some 0x08000020 ∧
    (let s := up.on fun m => { m with sensors := m.sensors.map fun x => { x with value := 31999, status := .ok } }
     s.m.fuseVoltageBad = true ∧ answerOf (after (.secureBootFuseCommit .can (natLe 4 fuseCode)) s) = some 0x08000022) := by decide +kernel
theorem test_owner_key :
    (let hash : Bytes := List.replicate 32 5
     let s : State := { up with fuses := { up.fuses with ownerHash := List.replicate 32 1, ownerEnrolled := true } }
     reaches up .can 0x2F02 3 (natLe 4 fuseCode ++ hash) = true ∧ hash.length = 32 ∧ hashCovers hash up.fuses.ownerHash = true ∧
       up.fuses.ownerEnrolled = false ∧ (after (.ownerKeyEnroll .can (natLe 4 fuseCode ++ hash)) up).fuses.ownerHash = hash ∧
       hash ≠ s.fuses.ownerHash ∧ answerOf (after (.ownerKeyEnroll .can (natLe 4 fuseCode ++ hash)) s) = some 0x08000020) := by decide +kernel
theorem test_rollback_fuse :
    (let s := fwState .confirmed .empty goodHeader .idle
     reaches s .can 0x2F02 6 (natLe 4 fuseCode) = true ∧ (s.m.fw.banks[s.m.fw.running]).st = .confirmed ∧ hdrVersion s.m.runningHeader = 3 ∧
       (after (.rollbackAdvance .can (natLe 4 fuseCode)) s).fuses.rollback = 7 ∧
       answerOf (after (.rollbackAdvance .can (natLe 4 fuseCode)) (fwState .trial .empty goodHeader .idle)) = some 0x08000022) := by decide +kernel
theorem test_fuse_form : FuseForm up.fuses := ⟨by decide, by decide, 0, by decide, by decide⟩

/-- The ROM is about to run, with banks of some states and a number of attempts. -/
def romState (a b : BankSt) (n : Nat) (image : Bytes) : State :=
  (fwState a b image .idle).on fun m => { m with pwr := { m.pwr with boot := .rom, resetting := some .cold }, fw := { m.fw with attempts := n } }

/-- The bank that runs after a boot, its state, and the attempts. -/
def booted (s : State) : Option (Fin 2 × BankSt × Nat) :=
  let t := after .boot s
  if t.m.pwr.boot = .running then some (t.m.fw.running, (t.m.fw.banks[t.m.fw.running]).st, t.m.fw.attempts) else none

theorem test_boot : (romState .confirmed .empty 0 []).m.romReady = true ∧ up.m.romReady = false ∧
    (romState .confirmed .empty 0 []).m.enforced Fuses.reset = false ∧ (romState .confirmed .empty 0 []).m.loadStore.firstBank = 0 ∧
    (romState .confirmed .trial 2 []).m.loadStore.firstBank = 1 ∧ booted (romState .confirmed .empty 0 []) = some (0, .confirmed, 0) ∧
    booted (romState .confirmed .staged 2 []) = some (1, .trial, 3) ∧ booted (romState .confirmed .trial 3 []) = some (0, .confirmed, 0) ∧
    booted (romState .invalid .confirmed 0 []) = some (1, .confirmed, 0) ∧ booted (romState .invalid .empty 0 []) = none := by decide +kernel

/-- A bank that fails under enforcement, beside one that verifies where its signature is right. -/
def romGood : State :=
  { ((romState .confirmed .confirmed 0 []).on fun m => { m with fw := { m.fw with
      banks := Vector.mk #[⟨[], .confirmed, [], 0⟩, goodBank] rfl } }) with fuses := { Fuses.reset with secureBoot := true } }

theorem test_boot_other (h : signed) : romGood.m.romReady = true ∧ romGood.m.enforced romGood.fuses = true ∧
    romGood.m.loadStore.firstBank = 0 ∧ ((romGood.m.fw.banks[(0 : Fin 2)]).verify romGood.fuses).toBool = false ∧
    (romGood.m.fw.banks[(1 : Fin 2)]).verify romGood.fuses = .ok goodBank.imageDigest := by
  refine ⟨by decide +kernel, by decide +kernel, by decide +kernel, by decide +kernel, ?_⟩
  have e : (romGood.m.fw.banks[(1 : Fin 2)]).verify romGood.fuses = goodBank.verify Fuses.reset := rfl
  rw [e, test_fw_good h]
theorem test_boot_confirm :
    (let s := fwState .trial .confirmed [] .idle
     (s.m.fw.banks[s.m.fw.running]).st = .trial ∧ s.m.mgmtUp = true ∧ s.m.mgmt.store = none ∧
       ((after .bootConfirm s).m.fw.banks[(0 : Fin 2)]).st = .confirmed) := by decide +kernel

/-! ### Module states, resets, power and temperature -/

/-- A module in a state, with a transition under way or not, contexts DISABLED. -/
def powered (st : ModState) (go : Option ModState) : State :=
  up.on fun m => { m with
    pwr := { m.pwr with modState := st, transition := go },
    ctxs := m.ctxs.map fun (x : Ctx) => { x with st := .disabled } }

/-- Its state and its transition after a command. -/
def stateAfter (i : Instr) (s : State) : ModState × Option ModState :=
  let t := after i s
  (t.m.pwr.modState, t.m.pwr.transition)

theorem test_state_request :
    (let s := powered .active none
     s.m.pwr.resetting = none ∧ s.m.mayGo .quiet = true ∧ s.m.mayGo .standby = true ∧ s.m.mayGo .mgmtOnly = true ∧ s.m.mayGo .active = false ∧
       ([0, 2, 3, 4].all fun v => reaches s .can 0x2010 4 [v]) = true ∧ (powered .quiet none).m.mayGo .active = true ∧
       stateAfter (.stateRequestQuiet .can) s = (.active, some .quiet) ∧ stateAfter (.stateRequestActive .can) s = (.active, none) ∧
       answerOf (after (.stateRequestQuiet .can) (powered .active (some .quiet))) = some 0x08000022) := by decide +kernel
theorem test_state_transition : (powered .active (some .quiet)).m.mayGo .quiet = true ∧
    stateAfter .stateTransitionComplete (powered .active (some .quiet)) = (.quiet, none) ∧
    (powered .active (some .standby)).m.mayGo .standby = true ∧
    stateAfter .stateTransitionComplete (powered .active (some .standby)) = (.standby, none) ∧
    stateAfter .stateTransitionComplete ((powered .active (some .standby)).link 3 fun k => { k with st := .l0 }) = (.active, some .standby) ∧
    (powered .active (some .mgmtOnly)).m.mayGo .mgmtOnly = true ∧
    stateAfter .stateTransitionComplete (powered .active (some .mgmtOnly)) = (.mgmtOnly, none) ∧
    (powered .mgmtOnly (some .active)).m.mayGo .active = true ∧
    stateAfter .stateTransitionComplete (powered .mgmtOnly (some .active)) = (.active, none) := by decide +kernel
theorem test_standby_links :
    (fins 35).all (fun l => !((powered .active (some .standby)).m.links[l]).flows) = true := by decide +kernel
theorem test_idle : up.m.diesWanted = false ∧ (stateAfter .idleEntry up).1 = .idle ∧
    (let s := (withSlot (arrayOf 0)).on fun m => { m with pwr := { m.pwr with modState := .idle } }
     s.m.diesWanted = true ∧ (stateAfter .idleWake s).1 = .active ∧ (stateAfter .idleEntry (withSlot (arrayOf 0))).1 = .active) ∧
    (stateAfter .quietWake (powered .quiet none)).1 = .active := by decide +kernel

theorem test_reset_request : up.m.absorbs .warm = false ∧ up.m.absorbs .dpKept = false ∧ up.m.absorbs .dpLost = false ∧ up.m.recovery = false ∧
    up.m.pwr.resetDue ≠ some .warm ∧ ([1, 2, 3, 4].all fun n => reaches up .can 0x2010 1 (natLe 4 (0x72737400 + n))) = true ∧
    up.m.drover.slots.toList.all (fun k => decide (k.st ≠ .frozen)) = true ∧
    (after (.warmResetRequest .can) up).m.pwr.resetDue = some .warm ∧ (after (.managementOnlyReset .can) up).m.pwr.resetDue = some .mgmtOnly ∧
    (after (.datapathResetDramKept .can) up).m.pwr.resetting = some .dpKept ∧ (after (.datapathResetDramKept .can) up).m.mem.dramEpochs = up.m.mem.dramEpochs ∧
    (after (.datapathResetDramLost .can) up).m.mem.dramEpochs ≠ up.m.mem.dramEpochs ∧
    (let s := up.on fun m => { m with pwr := { m.pwr with straps := 0x2401 } }
     s.m.recovery = true ∧ answerOf (after (.datapathResetDramKept .can) s) = some 0x08000022) := by decide +kernel
theorem test_reset_absorbed :
    (let s := up.on fun m => { m with pwr := { m.pwr with resetting := some .warm } }
     s.m.absorbs .warm = true ∧ s.m.absorbs .dpKept = true ∧ s.m.absorbs .dpLost = true ∧ s.m.recovery = false ∧
       (after (.datapathResetDramKept .can) s).m.pwr = s.m.pwr) ∧
    (let s := up.on fun m => m.modSnap 0 fun x => { x with st := .frozen }
     ((after (.datapathResetDramKept .can) s).m.drover.slots[(0 : Fin 2)]).st = .failed ∧
       ((after (.datapathResetDramKept .can) s).m.drover.slots[(1 : Fin 2)]) = s.m.drover.slots[(1 : Fin 2)]) := by decide +kernel
theorem test_off :
    (let s := after .overvoltageTrip up
     let low := after .resetNAssert s
     low.m.pwr.modState = .off ∧ low.m.pwr.resetNLow = true ∧
       ((after (.coldReset 0x2001) low).m.islands[(133 : IslandId)]).st = .reset ∧
       ((after (.coldReset 0x2001) s).m.islands[(133 : IslandId)]).st = .run ∧
       (after (.resetNRelease 0x2001) low).m.pwr.resetNLow = false) ∧ up.m.brownedOut = false := by decide +kernel
theorem test_reset_begin :
    (let s := up.on fun m => { m with pwr := { m.pwr with resetDue := some .warm } }
     (after (.resetBegin 0x2003) s).m.pwr.straps = 0x2003 ∧ (after (.resetBegin 0x2003) s).m.pwr.lastCause = 4) ∧
    (let s := up.on fun m => { m with pwr := { m.pwr with resetDue := some .mgmtOnly } }
     (after (.resetBegin 0x2003) s).m.pwr.mgmtResetting = true ∧ (after (.resetBegin 0x2003) s).m.pwr.lastCause = 7) := by decide +kernel

/-- A module in whose reset the firmware already runs. -/
def resettingBy (k : ResetKind) (straps : BitVec 16) (tripped : Bool) : State :=
  up.on fun m => { m with pwr := { m.pwr with resetting := some k, modState := .mgmtOnly, straps := straps, tripped := tripped } }

theorem test_reset_complete : (resettingBy .warm 0x2001 false).m.mgmtUp = true ∧ (resettingBy .warm 0x2001 false).m.pwr.resetNLow = false ∧
    (stateAfter .resetComplete (resettingBy .warm 0x2001 false)).1 = .active ∧
    (after .resetComplete (resettingBy .warm 0x2001 false)).m.mem.dramState = 1 ∧
    (stateAfter .resetComplete (resettingBy .warm 0x2401 false)).1 = .mgmtOnly ∧
    (let s := (resettingBy .warm 0x2001 true).on fun m => { m with sensors := m.sensors.map fun x => { x with value := 200000, status := .ok } }
     s.m.pwr.tripped = true ∧ s.m.cooled = false ∧ (stateAfter .resetComplete s).1 = .mgmtOnly) := by decide +kernel
theorem test_power : up.m.pwr.modState ≠ .off ∧ (stateAfter .powerDown up).1 = .off ∧
    (after .overvoltageTrip up).m.pwr.inputFaults = 1 ∧
    (let s := after .overvoltageTrip up
     s.m.pwr.modState = .off ∧ s.m.pwr.resetNLow = false ∧ (after (.coldReset 0x2001) s).m.pwr.lastCause = 2 ∧
       (after (.coldReset 0x2001) s).m.pwr.bootCount = 2) ∧
    (let s := after .resetNAssert up
     up.m.pwr.resetNLow = false ∧ s.m.pwr.resetNLow = true ∧ s.m.pwr.modState ≠ .off ∧ s.m.pwr.lastCause = 3 ∧
       (after (.resetNRelease 0x2003) s).m.pwr.straps = 0x2003) := by decide +kernel

/-- The power-cap request of island 0 after a tick. -/
def capAfter (i : Instr) (s : State) (quiet : Nat) (req : BitVec 2) : BitVec 2 × Nat :=
  let t := after i ((s.isl 0 fun x => { x with reqPower := req }).on fun m => { m with pwr := { m.pwr with capQuietMs := quiet } })
  ((t.m.islands[(0 : IslandId)]).reqPower, t.m.pwr.capQuietMs)

theorem test_power_cap :
    (let s := up.obj 0x2200 3 1000
     s.m.num 0x2200 3 = 1000 ∧ s.m.stageHot = false ∧ capAfter (.powerCapTick 1001) s 5 2 = (3, 0) ∧ capAfter (.powerCapTick 1001) s 5 3 = (3, 0) ∧
       capAfter (.powerCapTick 949) s 99 2 = (1, 0) ∧ capAfter (.powerCapTick 949) s 98 2 = (2, 99) ∧ capAfter (.powerCapTick 950) s 98 2 = (2, 0)) := by decide +kernel

/-- The same with every sensor of die 1 at a temperature: the thermal request of its control island and its ticks. -/
def heatAfter (i : Instr) (v : Int) (ticks : Nat) (req : BitVec 2) : BitVec 2 × Nat :=
  let s := (up.isl 23 fun x => { x with reqThermal := req }).on fun m => { m with
    sensors := m.sensors.map fun x => { x with value := v, status := .ok },
    pwr := { m.pwr with coolTicks := Vec.upd m.pwr.coolTicks 1 fun _ => ticks } }
  let t := after i s
  ((t.m.islands[(23 : IslandId)]).reqThermal, t.m.pwr.coolTicks[(1 : Fin 5)])

theorem test_thermal : heatAfter (.thermalThrottleTick 1) 95000 4 1 = (2, 0) ∧ heatAfter (.thermalThrottleTick 1) 91999 9 1 = (0, 0) ∧ heatAfter (.thermalThrottleTick 1) 91999 8 1 = (1, 9) ∧ heatAfter (.thermalThrottleTick 1) 92000 8 1 = (1, 0) := by
  decide +kernel
theorem test_trip : criticalOf 0 ≠ none ∧ criticalOf 156 ≠ none ∧ (stateAfter (.thermalTrip 156) up).1 = .mgmtOnly ∧ (stateAfter (.thermalTrip 0) up).1 = .mgmtOnly ∧ (after (.thermalTrip 0) up).m.pwr.tripped = true := by
  decide +kernel
end Sys2Proof.Tests
end

section
/-! Posted and emitted tokens (R139, R144): what the Heddle's counts are after one entry is set, which target an overflow names, what a
fault leaves of a running context, and how a write that reaches the dictionary is answered. -/

namespace Sys2Proof.Machine

open Sys2Proof Sys2Proof.Claims

/-! ### Token counts (R133, R139) -/

@[simp] theorem Ctx.noted_tokens (x : Ctx) (n e id : Nat) : (x.noted n).tokens e id = x.tokens e id := rfl

/-- Token IDs have 12 bits, so each engine and ID has an entry of its own. -/
theorem Ctx.tokens_setTokens (x : Ctx) {e id n d j : Nat} (hid : id < 4096) (hj : j < 4096) :
    (x.setTokens e id n).tokens d j = if d = e ∧ j = id then n else x.tokens d j := by
  have key : d * 4096 + j = e * 4096 + id ↔ d = e ∧ j = id := by omega
  simp only [Ctx.tokens, Ctx.setTokens, Sparse.get_set, key]

/-- The overflow of R139 names the lowest-numbered target whose count would pass 65,535. -/
theorem Ctx.overflows_eq_some_iff (x : Ctx) (mask id n e : Nat) :
    x.overflows mask id n = some e ↔ e < 6 ∧ bit mask e = true ∧ 65535 < x.tokens e id + n ∧
      ∀ d, d < e → bit mask d = true → x.tokens d id + n ≤ 65535 := by
  simp only [Ctx.overflows, targetTables, List.find?_filter, List.find?_range_eq_some, decide_eq_true_eq,
    List.mem_range, Bool.not_eq_true', decide_eq_false_iff_not, not_and, Nat.not_lt, and_assoc, and_left_comm]

/-! ### A fault of a running context (R148) -/

/-- A fault stops a context that is ENABLED, or HALTING for another cause than a fault: the fault is kept, no slot stands in the line. -/
theorem Mach.faultCtx_self (m : Mach) (c : CtxId) (i : FaultInfo)
    (h : (m.ctxs[c]).st = .enabled ∨ ((m.ctxs[c]).st = .halting ∧ (m.ctxs[c]).cause ≠ .fault)) :
    (m.faultCtx c i).ctxs[c] =
      { m.ctxs[c] with st := .halting, cause := .fault, pendingFault := some i, faultEng := i.eng, line := [] } := by
  have halting := Mach.setCtxState_get m c c .halting .fault
  unfold Mach.faultCtx
  rw [if_pos h]
  simp only [Fin.getElem_fin, if_true] at halting ⊢
  simp only [Mach.modCtx_ctxs, Vec.upd_get, halting, if_true]
  rw [Ctx.noted_stopped _ _ (by simp), Ctx.noted_stopped _ _ (by simp)]

/-- A TOKEN_OVERFLOW fault of a running context applies the token to none of its targets. -/
theorem Mach.overflowed_faultCtx (m : Mach) (c : CtxId) (mask id e : Nat) (i : FaultInfo)
    (h : (m.ctxs[c]).st = .enabled ∨ ((m.ctxs[c]).st = .halting ∧ (m.ctxs[c]).cause ≠ .fault))
    (ho : (m.ctxs[c]).overflows mask id = some e) (hs : i.status = BitVec.ofNat 8 Status.tokenOverflow.code)
    (hd : i.detail = BitVec.ofNat 32 (id + e * 2 ^ 12)) : Overflowed m (m.faultCtx c i) c mask id e i.eng i.wordSeq := by
  obtain ⟨-, named, full, lowest⟩ := (Ctx.overflows_eq_some_iff _ _ _ _ _).mp ho
  simp only [Overflowed, Mach.faultCtx_self m c i h, Option.map_some, hs, hd, named, true_and]
  exact ⟨full, lowest⟩

theorem Mach.commitSlot_overflow (m : Mach) (c : CtxId) (q : QSlot) (r : FaultRange × FaultRange) (x : Option RecFields) (e : Nat)
    (h : (m.ctxs[c]).overflows (emitTargets (ctlOf q.bytes)) (emitId (ctlOf q.bytes)) = some e) :
    m.commitSlot c q r x = m.failSlot c q {
      status := .tokenOverflow, detail := emitId (ctlOf q.bytes) + e * 2 ^ 12, range0 := r.1, range1 := r.2 } := by
  simp only [Mach.commitSlot, h]

theorem Mach.fireWord_overflow (m : Mach) (c : CtxId) (v : WordRec) (e : Nat)
    (h : (m.ctxs[c]).overflows v.syncTargets.toNat v.syncId.toNat = some e) :
    m.fireWord c v = m.faultCtx c ⟨BitVec.ofNat 8 Status.tokenOverflow.code, BitVec.ofNat 32 (v.syncId.toNat + e * 2 ^ 12), 7, v.seq,
      v.syncId, v.step, v.isOrdered, noRange, noRange, 0xFF, m.now⟩ := by
  simp only [Mach.fireWord, h]

/-! ### What DRAM reads as after a wake from QUIET (R384) -/

/-- What DRAM reads as depends on the bytes listed, the zeroed ranges and the channels' epochs alone. -/
theorem Mach.dramRead_congr {m m' : Mach} (hd : m'.dram = m.dram) (hz : m'.mem.zeroed = m.mem.zeroed)
    (he : m'.mem.dramEpochs = m.mem.dramEpochs) (a n : Nat) : m'.dramRead a n = m.dramRead a n := by
  simp only [Mach.dramRead, Mach.dramByte, MemSys.dramDefault, hd, hz, he]

/-- Self-refresh keeps the contents of DRAM. -/
@[simp] theorem Mach.selfRefresh_contents (m : Mach) (on : Bool) :
    (m.selfRefresh on).mem.zeroed = m.mem.zeroed ∧ (m.selfRefresh on).mem.dramEpochs = m.mem.dramEpochs := by
  cases on <;> exact ⟨rfl, rfl⟩

@[simp] theorem Mach.dramRead_leaveQuiet (m : Mach) (a n : Nat) : m.leaveQuiet.dramRead a n = m.dramRead a n := by
  refine Mach.dramRead_congr (by simp) ?_ ?_ a n <;> unfold Mach.leaveQuiet <;> split <;> simp

/-! ### The answer to a write that reaches the dictionary (R347) -/

theorem Mach.objRow_of_checkWrite {m : Mach} {ch : Channel} {idx sub : Nat} {data : Bytes} {r : ObjRow}
    (h : m.checkWrite ch idx sub data = .ok r) : objRow? idx sub = some r := by
  unfold Mach.checkWrite at h
  split at h
  · cases h
  · split at h
    · cases h
    · rename_i row found
      repeat (split at h; · cases h)
      cases h
      exact found

/-- The answer to a write leaves at once: no queue pair sends it. -/
theorem Mach.send_wroteOut (m : Mach) (ch : Channel) (idx sub e : Nat) :
    m.send (wroteOut ch idx sub e) = { m with out := wroteOut ch idx sub e :: m.out } := Mach.send_plain m _ rfl

end Sys2Proof.Machine

namespace Sys2Proof.Claims

open Sys2Proof Sys2Proof.Machine

section
variable {s : State} {ch : Channel} {idx sub : Nat} {data : Bytes} {w : Writer} {ty : Ty}

/-- Behind the checks, an object that is no BOOLEAN hands its value to the writer. -/
theorem Reaches.writer (h : Reaches s ch idx sub data) (hrow : (objRow? idx sub).map ObjRow.ty = some ty) (hty : ty ≠ .bool) (w : Writer) :
    s.m.chanUp ch = true ∧ ∃ r, s.m.checkWrite ch idx sub data = .ok r ∧
      boolGate r w s.m ch (r.ty.value data) = w s.m ch (ty.value data) := by
  obtain ⟨up, r, ok⟩ := h
  have rty : r.ty = ty := by simpa [Mach.objRow_of_checkWrite ok] using hrow
  exact ⟨up, r, ok, by rw [boolGate_plain r w s.m ch _ (by rwa [rty]), rty]⟩

theorem Reaches.dictWrite_err (h : Reaches s ch idx sub data) (hrow : (objRow? idx sub).map ObjRow.ty = some ty) (hty : ty ≠ .bool)
    {e : Nat} (hw : w s.m ch (ty.value data) = .err e) :
    RefusedWith e ch idx sub s (s.onMach fun m => m.dictWrite ch idx sub data w) := by
  obtain ⟨up, r, ok, gate⟩ := h.writer hrow hty w
  simp only [RefusedWith, State.onMach, Mach.dictWrite_err _ _ _ _ _ _ r e up ok (gate.trans hw), Mach.refused_wrote]

theorem Reaches.dictWrite_ok (h : Reaches s ch idx sub data) (hrow : (objRow? idx sub).map ObjRow.ty = some ty) (hty : ty ≠ .bool)
    {m' : Mach} (hw : w s.m ch (ty.value data) = .ok m') :
    s.m.dictWrite ch idx sub data w = (m'.logWrite ch idx sub data).send (wroteOut ch idx sub 0) := by
  obtain ⟨up, r, ok, gate⟩ := h.writer hrow hty w
  rw [Mach.dictWrite_ok _ m' _ _ _ _ _ r up ok (gate.trans hw), Mach.reply_wrote]

end

end Sys2Proof.Claims

namespace Sys2Proof.Machine

open Sys2Proof Sys2Proof.Claims

/-! ### A write to token_post (R144) -/

/-- The value n of token_post breaks one of the five bounds of R144. -/
def PostOutOfBounds (m : Mach) (c : CtxId) (n : Nat) : Prop :=
  65535 < (m.ctxs[c]).tokens (bits n 14 12) (bits n 11 0) + bits n 31 16 ∨ bits n 31 16 = 0 ∨ 6 ≤ bits n 14 12 ∨ bit n 15 = true ∨
    (m.grade = .n ∧ bits n 14 12 = 4)

/-- A context takes posted tokens: it is ENABLED, or HALTED after a halt. -/
def Ctx.TakesPosts (x : Ctx) : Prop := x.st = .enabled ∨ (x.st = .halted ∧ x.cause = .halt)

/-- The tokens that the value n of token_post names are posted. -/
def Mach.post (m : Mach) (c : CtxId) (n : Nat) : Mach :=
  m.modCtx c fun x => x.setTokens (bits n 14 12) (bits n 11 0) (x.tokens (bits n 14 12) (bits n 11 0) + bits n 31 16)

section
variable {m : Mach} {c : CtxId} {ch : Channel} {v : Val}

/-- The checks of token_post in their order: the bounds, the state of the context, the state of the module. -/
theorem wrTokenPost_checks (m : Mach) (c : CtxId) (ch : Channel) (v : Val) :
    ∃ bad closed : Bool, (bad = true ↔ PostOutOfBounds m c v.toNum) ∧ (closed = true ↔ ¬(m.ctxs[c]).TakesPosts) ∧
      wrTokenPost c m ch v = .guard bad abRange (.guard closed abState (.waking m fun m => .ok (m.post c v.toNum))) := by
  refine ⟨_, _, ?_, ?_, rfl⟩
  · simp only [PostOutOfBounds, Bool.or_eq_true, Bool.and_eq_true, decide_eq_true_eq]
    tauto
  · rw [Bool.not_eq_true', Bool.eq_false_iff]
    exact not_congr (by simp [Ctx.TakesPosts, Ctx.resumable])

theorem wrTokenPost_outOfBounds (h : PostOutOfBounds m c v.toNum) : wrTokenPost c m ch v = .err abRange := by
  obtain ⟨bad, closed, hbad, -, eq⟩ := wrTokenPost_checks m c ch v
  rw [eq, hbad.mpr h, Wr.guard_true]

theorem wrTokenPost_closed (h : ¬PostOutOfBounds m c v.toNum) (hc : ¬(m.ctxs[c]).TakesPosts) :
    wrTokenPost c m ch v = .err abState := by
  obtain ⟨bad, closed, hbad, hclosed, eq⟩ := wrTokenPost_checks m c ch v
  rw [eq, Bool.eq_false_iff.mpr (mt hbad.mp h), Wr.guard_false, hclosed.mpr hc, Wr.guard_true]

theorem wrTokenPost_open (h : ¬PostOutOfBounds m c v.toNum) (hc : (m.ctxs[c]).TakesPosts) :
    wrTokenPost c m ch v = .waking m fun m => .ok (m.post c v.toNum) := by
  obtain ⟨bad, closed, hbad, hclosed, eq⟩ := wrTokenPost_checks m c ch v
  have opened : closed = false := Bool.eq_false_iff.mpr fun shut => hclosed.mp shut hc
  rw [eq, Bool.eq_false_iff.mpr (mt hbad.mp h), Wr.guard_false, opened, Wr.guard_false]

end

/-- In STANDBY and MGMT_ONLY a write that would start work is refused (R385). -/
theorem Wr.waking_refused {m : Mach} (f : Mach → Wr) (h : m.pwr.modState = .standby ∨ m.pwr.modState = .mgmtOnly) :
    Wr.waking m f = .err abState := by
  rcases h with h | h <;> simp [Wr.waking, Mach.awake, h]

/-- In ACTIVE and IDLE such a write is applied as things stand, in QUIET after the wake, which keeps contexts, memory and dictionary
(R384, R385). -/
theorem Wr.waking_applied {m : Mach} (f : Mach → Wr)
    (h : m.pwr.modState = .active ∨ m.pwr.modState = .idle ∨ m.pwr.modState = .quiet) :
    ∃ m' : Mach, Wr.waking m f = f m' ∧ m'.ctxs = m.ctxs ∧ m'.dict = m.dict ∧ m'.spad = m.spad ∧
      ∀ a n, m'.dramRead a n = m.dramRead a n := by
  rcases h with h | h | h
  · exact ⟨m, by simp [Wr.waking, Mach.awake, h], rfl, rfl, rfl, fun _ _ => rfl⟩
  · exact ⟨m, by simp [Wr.waking, Mach.awake, h], rfl, rfl, rfl, fun _ _ => rfl⟩
  · exact ⟨m.leaveQuiet, by simp [Wr.waking, Mach.awake, h], by simp⟩

/-- Posting adds the count to the entry named and leaves every other entry as it is. -/
theorem Mach.post_tokens (m : Mach) (c : CtxId) (n d j : Nat) (hj : j < 4096) :
    ((m.post c n).ctxs[c]).tokens d j =
      (m.ctxs[c]).tokens d j + if d = bits n 14 12 ∧ j = bits n 11 0 then bits n 31 16 else 0 := by
  have hid : bits n 11 0 < 4096 := Nat.mod_lt _ (by decide)
  simp only [Mach.post, Mach.modCtx_ctxs, Fin.getElem_fin, Vec.upd_get, if_true, Ctx.noted_tokens, Ctx.tokens_setTokens _ hid hj]
  split
  · rename_i same
    rw [same.1, same.2]
  · rfl

theorem Mach.post_other (m : Mach) (c d : CtxId) (n : Nat) (h : d ≠ c) : (m.post c n).ctxs[d] = m.ctxs[d] :=
  Vec.upd_other _ _ _ _ h.symm

/-- Posting keeps the dictionary and the memories. -/
@[simp] theorem Mach.post_frame (m : Mach) (c : CtxId) (n : Nat) :
    (m.post c n).dict = m.dict ∧ (m.post c n).spad = m.spad ∧ (m.post c n).dram = m.dram ∧ (m.post c n).mem = m.mem := by
  simp [Mach.post]

theorem tokenPost_row (c : CtxId) : (objRow? (ctxIdx c 3) 5).map ObjRow.ty = some .u32 := by
  revert c
  decide +kernel

/-- token_post refuses what its writer refuses. -/
theorem tokenPost_refused {s : State} {ch : Channel} {c : CtxId} {data : Bytes} {e : Nat} (h : Reaches s ch (ctxIdx c 3) 5 data)
    (hw : wrTokenPost c s.m ch (.num (leNat data)) = .err e) :
    Ends (.tokenPost ch c data) s (RefusedWith e ch (ctxIdx c 3) 5 s) :=
  ⟨_, rfl, h.dictWrite_err (tokenPost_row c) (by decide) hw⟩

/-- An accepted write of token_post: the tokens are posted on a machine m' that waking may have changed, the write is logged, success is
answered. -/
theorem tokenPost_accepted {s : State} {ch : Channel} {c : CtxId} {data : Bytes} {m' : Mach} (h : Reaches s ch (ctxIdx c 3) 5 data)
    (hw : wrTokenPost c s.m ch (.num (leNat data)) = .ok (m'.post c (leNat data))) :
    exec (.tokenPost ch c data) s = .next { s with
      m := ((m'.post c (leNat data)).logWrite ch (ctxIdx c 3) 5 data).send (wroteOut ch (ctxIdx c 3) 5 0) } :=
  congrArg (fun t : Mach => (.next { s with m := t } : Host.Outcome State Fault Refusal)) (h.dictWrite_ok (tokenPost_row c) (by decide) hw)

end Sys2Proof.Machine

namespace Sys2Proof.Claims

open Sys2Proof Sys2Proof.Machine

/-- Settles O12: an emit that would overflow a target ends in the fault alone, whose detail is the ID and the lowest such target. -/
theorem tokenOverflowAppliesToNoTarget : Obligations.TokenOverflowAppliesToNoTarget := by
  unfold Obligations.TokenOverflowAppliesToNoTarget
  intro m c running
  refine ⟨fun q e overflow => ?_, fun v e overflow => ?_⟩
  · rw [Mach.commitSlot_overflow m c q _ _ e overflow]
    exact Mach.overflowed_faultCtx m c _ _ e _ running overflow rfl rfl
  · rw [Mach.fireWord_overflow m c v e overflow]
    exact Mach.overflowed_faultCtx m c _ _ e _ running overflow rfl rfl

/-- Settles O13, by the order of the writer's checks: bounds, state of the context, state of the module. -/
theorem tokenPostAddsToOneEntry : Obligations.TokenPostAddsToOneEntry := by
  unfold Obligations.TokenPostAddsToOneEntry
  intro s ch c data reach
  refine ⟨fun bad => ?_, fun good closed => ?_, fun good opened asleep => ?_, fun good opened awake => ?_⟩
  · exact tokenPost_refused reach (wrTokenPost_outOfBounds bad)
  · exact tokenPost_refused reach (wrTokenPost_closed good closed)
  · exact tokenPost_refused reach ((wrTokenPost_open (v := .num (leNat data)) good opened).trans (Wr.waking_refused _ asleep))
  · obtain ⟨m', woken, ctxs, dict, spad, dram⟩ := Wr.waking_applied (fun m => .ok (m.post c (leNat data))) awake
    refine ⟨_, tokenPost_accepted reach ((wrTokenPost_open (v := .num (leNat data)) good opened).trans woken), ?_⟩
    simp only [Accepted, OtherCtxs, SameMemory, Mach.send_wroteOut, Mach.logWrite_frame]
    refine ⟨fun d j hj => ?_, rfl, fun d hd => ?_, ⟨?_, fun a n => ?_⟩, ?_⟩
    · rw [Mach.post_tokens m' c _ d j hj, ctxs]
    · rw [Mach.post_other m' c d _ hd, ctxs]
    · simpa using spad
    · exact (Mach.dramRead_congr (by simp) (by simp) (by simp) a n).trans (dram a n)
    · simpa using dict

end Sys2Proof.Claims
end
